-- ==== Sys2Proof/Word.lean ====
section
/-! DEFINITION. The plain types of the values on the block's ports (00_scope.md R8, 10_state.md R16 to R20). -/

namespace Sys2Proof

/-- One byte: a sensor byte, a register address, an identity byte (R35). -/
abbrev Byte := BitVec 8

/-- A segment pattern, active-low (R53). -/
abbrev SegPattern := BitVec 8

/-- A value of the format P_FLT on a float port: IEEE 754 binary32, as its 32 bits (R7, R51). -/
abbrev Flt := BitVec 32

/-- The operation selector `sel[3:0]` (R20, R59). -/
abbrev Sel := BitVec 4

/-- A glyph index `g[4:0]` (R55). -/
abbrev GlyphIndex := BitVec 5

/-- A PWM duty, 0 to 1023 (R57). -/
abbrev Duty := BitVec 10

/-- A status code `[2:0]` (R94). -/
abbrev StatusCode := BitVec 3

end Sys2Proof
end

