-- ==== Sys2Proof/Machine/Float.lean ====
section
/-! DEFINITION. Binary32 with roundTiesToEven (00_scope.md R7, R10; 30_encoding.md R51).

Every finite binary32 value, and every real that the rules round (|v| × 1000, p + 0.5, q / 16), is a whole number of
2^-149, the least subnormal. So an exact real is written as the integer that counts it in those units, and `fl` rounds
such an integer. -/

namespace Sys2Proof.Machine

/-- Bit 31, the sign (R51). -/
def fltSign (v : Flt) : Bool := v.getLsbD 31

/-- Bits 30:23, the biased exponent (R51). -/
def fltExp (v : Flt) : Nat := v.toNat / 2 ^ 23 % 256

/-- Bits 22:0, the fraction (R51). -/
def fltFrac (v : Flt) : Nat := v.toNat % 2 ^ 23

/-- `isNaN(v)` (R10). -/
def isNaN (v : Flt) : Bool := fltExp v == 255 && fltFrac v != 0

/-- `isInf(v)`: either infinity (R10). -/
def isInf (v : Flt) : Bool := fltExp v == 255 && fltFrac v == 0

/-- Neither a NaN nor an infinity. -/
def isFinite (v : Flt) : Bool := fltExp v != 255

/-- `|v|`: clears the sign, exactly (R10). -/
def fltAbs (v : Flt) : Flt := v &&& 0x7FFFFFFF#32

/-- The magnitude of a finite value in units of 2^-149: a subnormal is its fraction, a normal number its 24-bit
significand scaled by its exponent (R51). -/
def fltUnits (v : Flt) : Nat :=
  if fltExp v = 0 then fltFrac v else (2 ^ 23 + fltFrac v) * 2 ^ (fltExp v - 1)

/-- `real(v)` of a finite value, in units of 2^-149 (R10). -/
def fltReal (v : Flt) : Int :=
  if fltSign v then -(fltUnits v : Int) else (fltUnits v : Int)

/-- The number 1 in units of 2^-149. -/
def unitsPerOne : Nat := 2 ^ 149

/-- Bits 30:0 of infinity. -/
def infinityBits : Nat := 0x7F800000

/-- `n` rounded to a multiple of `2^k`, counted in multiples of `2^k`: to the nearest, a tie to the even one
(roundTiesToEven, R7). -/
def roundEven (n k : Nat) : Nat :=
  if 2 * (n % 2 ^ k) > 2 ^ k ∨ (2 * (n % 2 ^ k) = 2 ^ k ∧ n / 2 ^ k % 2 = 1) then n / 2 ^ k + 1 else n / 2 ^ k

/-- How many low bits of an `n` of more than 24 bits do not fit the significand. -/
def excessBits (n : Nat) : Nat := n.log2 - 23

/-- Bits 30:0 of `fl` of a magnitude of `n` units. The exponent field counts on from the significand, so that a carry
out of the rounding moves to the next binade, and past the last one to infinity. -/
def flMagnitude (n : Nat) : Nat :=
  min (excessBits n * 2 ^ 23 + roundEven n (excessBits n)) infinityBits

/-- `fl(x)` for the exact real x = n · 2^-149: one rounding to P_FLT (R10). An exact zero gives +0.0 (R67). -/
def fl (n : Int) : Flt :=
  if n < 0 then BitVec.ofNat 32 (2 ^ 31 + flMagnitude n.natAbs) else BitVec.ofNat 32 (flMagnitude n.natAbs)

/-- The place of a value that is not a NaN in the order of IEEE 754; both zeros have the same place. -/
def fltKey (v : Flt) : Int :=
  if fltSign v then -((v.toNat % 2 ^ 31 : Nat) : Int) else ((v.toNat % 2 ^ 31 : Nat) : Int)

/-- `a < b`, false with a NaN (R10). -/
def fltLt (a b : Flt) : Bool := !isNaN a && !isNaN b && decide (fltKey a < fltKey b)

/-- `a == b`, false with a NaN; −0.0 == +0.0 (R10). -/
def fltEq (a b : Flt) : Bool := !isNaN a && !isNaN b && decide (fltKey a = fltKey b)

/-- +0.0. -/
def fltZero : Flt := 0#32

/-- `trunc(x)` of a finite value that is not negative: rounding toward zero (R9). -/
def fltTrunc (v : Flt) : Nat := fltUnits v / unitsPerOne

end Sys2Proof.Machine
end

