-- ==== Sys2Proof/Config.lean ====
section
/-! DEFINITION. What is fixed before the first operation (10_state.md R15, 70_reset_and_hazards.md R116) and the
values that the spec leaves open. The parameters with a default (P_SEG_LUT, P_SEG_BITS) and P_MODE_LETTERS are the
structure `Config`, which State holds, so that a statement over all states holds for every value of them. The host's
OPEN parameters and the values that 93_implementation_defined.md treats as "any value" are constants with no body. -/

namespace Sys2Proof

/-- The eight segments that a pattern drives (R53). -/
inductive Segment where
  | a | b | c | d | e | f | g | dp
  deriving DecidableEq, Repr

/-- The constant configuration of the block (R15). -/
structure Config where
  /-- P_SEG_LUT: the patterns of the glyph indices 0 to 12 (R55, R56). Index 13 is blank, fixed at 0xFF (R54). -/
  segLut : Vector SegPattern 13
  /-- P_MODE_LETTERS: the patterns of the indices 14 to 31; `none` is an index that it does not assign (R55, R60). -/
  modeLetters : Vector (Option SegPattern) 18
  /-- P_SEG_BITS: which bit of a pattern drives the segments a, b, c, d, e, f, g, dp, in that order (R53). -/
  segBits : Vector (Fin 8) 8
  deriving DecidableEq, Repr

/-- The patterns that ENC hands to the host for display positions (20_memory.md R38). -/
inductive EncGlyph where
  | unit
  | sign
  | digit (i : Fin 5)
  deriving DecidableEq, Repr

/-- Free value (U13, N12; log 6): the pattern that the host's `n`-th clearing of the display writes to a position. -/
opaque Config.clearedPattern : Nat → Fin 9 → SegPattern

/-- Free value (U13, N12; log 6): the decimal-point mask after the host's `n`-th clearing of the display. -/
opaque Config.clearedMask : Nat → BitVec 9

/-- Free value (U19, C8; log 8): whether the host's Mode is Live (true) or Calibrate (false) after it leaves the
show-difference sub-loop. -/
opaque Config.liveAfterDifference : Nat → Bool

/-- Free value (U22, N22; log 9): the host's mean of the readings of one read_average(30). -/
opaque Config.hostMean : Nat → List Flt → Flt

/-- Free value (U22, N22; log 9): the host's `Baseline - current`, the arguments in that order. -/
opaque Config.hostDifference : Nat → Flt → Flt → Flt

/-- P_F_CONV, OPEN (D24, U17; log 10): the host's Celsius-to-Fahrenheit conversion. -/
opaque Config.toFahrenheit : Flt → Flt

/-- P_LAYOUT, OPEN (D23, U16; log 7): the order in which the nine display positions take up the unit, the sign, the five
digits and the two patterns left over. -/
opaque Config.positionOrder : Equiv.Perm (Fin 9)

/-- P_LAYOUT, OPEN (D23, U16; log 7): the ENC output, if any, that each of the two positions left over shows as well. -/
opaque Config.spareGlyph : Fin 2 → Option EncGlyph

/-- P_LAYOUT, OPEN (D23, U16; log 7): the bit of the 9-bit decimal-point mask that belongs to a display position. Only the
order is open: each position has a bit of its own (R27). -/
opaque Config.maskOrder : Equiv.Perm (Fin 9)

/-- P_SENSOR_ADDR, OPEN (D21, U15; log 15): the sensor's fixed 7-bit device address (R35, R37). -/
opaque Config.sensorAddr : BitVec 7

/-- P_ID_EXPECTED, OPEN (D22, U15; log 15): the identity byte that the host expects from register 0x0B (R37, R70). -/
opaque Config.idExpected : Byte

end Sys2Proof
end

