-- ==== Sys2Proof/Machine/Params.lean ====
section
/-! DEFINITION. The block's fixed constants (00_scope.md R6) and the default parameters (R7, 30_encoding.md R53, R56). -/

namespace Sys2Proof.Machine

/-- SIGN_BIT (R6). -/
def signBit : Nat := 15
/-- SHIFT (R6). -/
def shift : Nat := 3
/-- RESOLUTION_BITS (R6). -/
def resolutionBits : Nat := 13
/-- OFFSET = 2^13 (R6). -/
def offset : Nat := 8192
/-- DIVISOR: the resolution is 1/16 °C (R6). -/
def divisor : Nat := 16
/-- SCALE (R6). -/
def scale : Nat := 1000
/-- The largest scaled integer that five digits hold (R75). -/
def maxFiveDigits : Nat := 99999
/-- DUTY_FULL (R6, R57). -/
def dutyFull : Duty := 1023
/-- DUTY_MIN, the least non-zero duty (R6, D15). -/
def dutyMin : Duty := 1
/-- AVG_N, the readings of one read_average (R6, R26). -/
def averageCount : Nat := 30
/-- TEMP_REG and its length (R6, R37). -/
def tempReg : Byte := 0x00
/-- ID_REG (R6, R37). -/
def idReg : Byte := 0x0B

/-- The blank pattern: every bit 1, no segment lit (R54). It is no parameter. -/
def blankPattern : SegPattern := 0xFF

/-- The glyph index of the letter C (R55). -/
def glyphC : GlyphIndex := 10
/-- The glyph index of the letter F (R55). -/
def glyphF : GlyphIndex := 11
/-- The glyph index of the minus sign (R55). -/
def glyphMinus : GlyphIndex := 12
/-- The glyph index of blank (R55). -/
def glyphBlank : GlyphIndex := 13

/-- The decimal-point mask of a valid input: a point after the ones digit (R58, R80). -/
def pointAfterOnes : BitVec 5 := 0b00010

/-- The place of a segment in P_SEG_BITS. -/
def segmentIndex : Segment → Fin 8
  | .a => 0 | .b => 1 | .c => 2 | .d => 3 | .e => 4 | .f => 5 | .g => 6 | .dp => 7

/-- The default configuration: P_SEG_LUT as R56 lists it, P_MODE_LETTERS with no letter assigned (95_test_vectors.md),
P_SEG_BITS as R53 decides it. -/
def defaultConfig : Config where
  segLut := #v[0xC0, 0xF9, 0xA4, 0xB0, 0x99, 0x92, 0x82, 0xF8, 0x80, 0x90, 0xC6, 0x8E, 0xBF]
  modeLetters := Vector.replicate 18 none
  segBits := #v[0, 1, 2, 3, 4, 5, 6, 7]

end Sys2Proof.Machine
end

