-- ==== Sys2Proof/Syntax.lean ====
section
/-! DEFINITION. The five operations (30_encoding.md R59, opcode_table.json), an operation with its operands
(95_test_vectors.md section 3), and the steps of the host that drives the block (20_memory.md R44). -/

namespace Sys2Proof

/-- The unit field `u` = sel[1], which drives `enc_unit`: 0 Celsius, 1 Fahrenheit (R17, R59). -/
inductive TempUnit where
  | celsius
  | fahrenheit
  deriving DecidableEq, Repr

/-- The path field `p` = sel[0], which drives `enc_path`: 0 plain, 1 difference (R17, R59). -/
inductive EncPath where
  | plain
  | difference
  deriving DecidableEq, Repr

/-- The operations of the block, one constructor for each row of the opcode table. Their operands are port values
(R61); `u` is the one field that the selector itself carries. -/
inductive Instr where
  /-- DECODE, sel 0000 (R64). -/
  | decode
  /-- ENC.PLAIN, sel 01u0 (R81). -/
  | encPlain (u : TempUnit)
  /-- ENC.DIFF, sel 01u1 (R82). -/
  | encDiff (u : TempUnit)
  /-- SEGLUT, sel 1000 (R85). -/
  | segLut
  /-- PWMMAP, sel 1100 (R87). -/
  | pwmMap
  deriving DecidableEq, Repr

/-- An operation written with the operand port values it reads, in the order of R59 (R62, 95_test_vectors.md
section 3). -/
inductive Operation where
  | decode (b0 b1 : Byte) (ok : Bool)
  | encPlain (u : TempUnit) (v : Flt)
  | encDiff (u : TempUnit) (v : Flt)
  | segLut (g : GlyphIndex)
  | pwmMap (d : Flt)
  deriving DecidableEq, Repr

/-- The selector part of an operation. -/
def Operation.instr : Operation → Instr
  | .decode _ _ _ => .decode
  | .encPlain u _ => .encPlain u
  | .encDiff u _ => .encDiff u
  | .segLut _ => .segLut
  | .pwmMap _ => .pwmMap

/-- What the host does in one step: issue an operation, or one of its own actions around the block (R44 and the
`host:` lines of 95_test_vectors.md section 3). Values that the environment supplies are arguments. -/
inductive HostStep where
  /-- Issue the operation that `sel` names, on the values now presented on the ports (R40, R59). -/
  | operation (sel : Sel)
  /-- Present `dec_b0`, `dec_b1` and `dec_ok`. -/
  | presentSensor (b0 b1 : Byte) (ok : Bool)
  /-- Present `enc_v`. -/
  | presentValue (v : Flt)
  /-- Present `lut_g`. -/
  | presentGlyph (g : GlyphIndex)
  /-- Present `pwm_d`. -/
  | presentDifference (d : Flt)
  /-- `MemRead(reg, n)` of the sensor, at the one device address P_SENSOR_ADDR (R11, R34, R37); `reply` is what the bus
  returned, `none` a failed transaction. -/
  | memRead (reg : Byte) (n : Nat) (reply : Option (List Byte))
  /-- Skip the next `n` steps unless DEC's last result is a reading of this tick (R46; program P4, step 6). -/
  | skipUnlessReading (n : Nat)
  /-- Pass `dec_celsius` to `enc_v` (program P1, step 3). -/
  | passCelsius
  /-- Pass P_F_CONV of `dec_celsius` to `enc_v` (R44, Live tick with Fahrenheit selected). -/
  | passFahrenheit
  /-- Take `dec_celsius` as one of the 30 readings of read_average (R26, R44). -/
  | takeSample
  /-- Set Baseline to the mean of the 30 readings (R26, R44). -/
  | setBaseline
  /-- Pass Baseline to `enc_v` (R44, set-baseline). -/
  | passBaseline
  /-- Pass `Baseline - current` to `enc_v` and `pwm_d` (R44, show-difference tick). -/
  | passDifference
  /-- Write ENC's outputs to the display under P_LAYOUT (R38). -/
  | writeDisplay
  /-- Write PWM's outputs to the three channels (R39). -/
  | writeDuties
  /-- Write SEGLUT's pattern to a display position: a letter of a mode name (R18, R38). -/
  | writeGlyph (p : Fin 9)
  /-- Observe a button code (R25, R111; 95_test_vectors.md E5). -/
  | button (code : Nat)
  /-- One tick of the host's control loop: the sequence of R44 that its Mode calls for. `reply` is what the sensor's
  temperature read gives, `none` a failed read; `aux` is the auxiliary selector input. -/
  | tick (reply : Option (Byte × Byte)) (aux : TempUnit)
  /-- The set-baseline action: the sequence of R44, with what the sensor gives to each of the 30 reads. -/
  | baselineAction (replies : Vector (Option (Byte × Byte)) 30)
  deriving DecidableEq, Repr

/-- The host steps that issue one operation: its operands are presented, then its selector is issued. -/
def HostStep.present : Operation → HostStep
  | .decode b0 b1 ok => .presentSensor b0 b1 ok
  | .encPlain _ v => .presentValue v
  | .encDiff _ v => .presentValue v
  | .segLut g => .presentGlyph g
  | .pwmMap d => .presentDifference d

end Sys2Proof
end

