-- ==== Sys2Proof/Machine/Status.lean ====
section
/-! DEFINITION. The status codes (60_exceptions.md R94). -/

namespace Sys2Proof.Machine

/-- The named status codes (R94). Code 7 has no name: it is never driven. -/
inductive Status where
  | ok
  | decNoReading
  | encInvalid
  | encOverflow
  | pwmInvalid
  | lutReserved
  | selReserved
  deriving DecidableEq, Repr

/-- The code of a status (R94). -/
def statusCode : Status → StatusCode
  | .ok => 0
  | .decNoReading => 1
  | .encInvalid => 2
  | .encOverflow => 3
  | .pwmInvalid => 4
  | .lutReserved => 5
  | .selReserved => 6

/-- The code that is never driven (R94, U12). -/
def statusNeverDriven : StatusCode := 7

end Sys2Proof.Machine
end

