-- ==== Sys2Proof/Machine/Flags.lean ====
section
/-! DEFINITION. Every flag output and the status each unit raises (10_state.md R22, 60_exceptions.md R94, R100). -/

namespace Sys2Proof.Machine

/-- `dec_neg`: bit 15 of the sensor word (R22, R64). -/
def decNegFlag (w : BitVec 16) : Bool := w.getLsbD signBit

/-- `enc_neg`: v < 0 under the IEEE comparison (R72). -/
def encNegFlag (v : Flt) : Bool := fltLt v fltZero

/-- `enc_ovf`: the scaled integer does not fit five digits (R75). -/
def encOvfFlag (m : Nat) : Bool := decide (m > maxFiveDigits)

/-- `enc_blank`: the difference path with a zero tens digit (R76). -/
def encBlankFlag (path : EncPath) (tens : BitVec 4) : Bool := path == .difference && tens == 0

/-- `pwm_inv`: the difference is a NaN (R90). -/
def pwmInvFlag (d : Flt) : Bool := isNaN d

/-- The status of a valid ENC operation (R81, R82). -/
def encStatus (ovf : Bool) : Status := if ovf then .encOverflow else .ok

end Sys2Proof.Machine
end

