-- ==== Sys2Proof/Machine/Segments.lean ====
section
/-! DEFINITION. The segment table LUT (10_state.md R23, 30_encoding.md R53 to R56). -/

namespace Sys2Proof.Machine

/-- `LUT(g)`: the pattern of a glyph index, `none` for an index that no entry is defined for (R55, R60). Every
operation reads this one table (R23, R86). -/
def lut (cfg : Config) (g : GlyphIndex) : Option SegPattern :=
  if h : g.toNat < 13 then some cfg.segLut[g.toNat]
  else if g = glyphBlank then some blankPattern
  else cfg.modeLetters[g.toNat - 14]'(by have := g.isLt; omega)

/-- The pattern that ENC draws for a glyph of its own, an index from 0 to 13; LUT defines all of these. -/
def drawn (cfg : Config) (g : GlyphIndex) : SegPattern := (lut cfg g).getD blankPattern

/-- Whether a pattern lights a segment: active-low, bit 0 lights it (R53). -/
def lights (cfg : Config) (pattern : SegPattern) (seg : Segment) : Bool :=
  !pattern.getLsbD (cfg.segBits[(segmentIndex seg).val]'(segmentIndex seg).isLt).val

end Sys2Proof.Machine
end

