-- ==== Sys2Proof/WellFormed.lean ====
section
/-! DEFINITION. The checks on terms that the types alone do not make. -/

namespace Sys2Proof

/-- Every term of `Instr` is well formed: the one field of an operation is the unit bit, and both its values are
legal (R59). Operands are port values of fixed width (R61), so there is nothing else to check. -/
def Instr.wellFormed : Instr → Bool
  | .decode => true
  | .encPlain _ => true
  | .encDiff _ => true
  | .segLut => true
  | .pwmMap => true

/-- The sensor reads that the source defines: register 0x00, 2 bytes, and register 0x0B, 1 byte (R34, R37). -/
def sensorReadDefined (reg : Byte) (n : Nat) : Bool :=
  (reg == 0x00 && n == 2) || (reg == 0x0B && n == 1)

/-- A host step is well formed when a sensor read is one that the source defines and a completed read returned the
number of bytes asked for (R34, R37); every other step is. -/
def HostStep.wellFormed : HostStep → Bool
  | .memRead reg n reply =>
      sensorReadDefined reg n &&
        (match reply with
         | none => true
         | some bytes => bytes.length == n)
  | _ => true

/-- P_SEG_BITS gives each of the eight segments a bit of its own (R53: the 8 bits cover the seven segments and the
decimal point). -/
def Config.wellFormed (cfg : Config) : Bool :=
  decide cfg.segBits.toList.Nodup

end Sys2Proof
end

