-- ==== Sys2Proof/Decode.lean ====
section
/-! DEFINITION. The selector's decoder and encoder (30_encoding.md R59, R60, R63), and the decoder and encoder of an
operation with its operands (95_test_vectors.md section 3). -/

namespace Sys2Proof

/-- Why a selector or a word sequence is no operation. -/
inductive DecodeError where
  /-- A reserved selector value (R60). -/
  | selReserved (sel : Sel)
  /-- A word that does not fit the port it is meant for (R35). -/
  | tooWide (bits value : Nat)
  /-- The operand words of the operation are not all there. -/
  | missingOperand
  /-- No selector. -/
  | noSelector
  deriving DecidableEq, Repr

/-- The field `u` = sel[1] (R59). -/
def unitField (sel : Sel) : TempUnit :=
  if sel.getLsbD 1 then .fahrenheit else .celsius

/-- The bit that a unit is written as in `u` (R59). -/
def unitBit : TempUnit → Sel
  | .celsius => 0b0000
  | .fahrenheit => 0b0010

/-- The selector table of R59, in its order: mask, match, and the operation a selector of the row names. -/
def selectorTable : List (Sel × Sel × (Sel → Instr)) :=
  [(0xF, 0x0, fun _ => .decode),
   (0xD, 0x4, fun sel => .encPlain (unitField sel)),
   (0xD, 0x5, fun sel => .encDiff (unitField sel)),
   (0xF, 0x8, fun _ => .segLut),
   (0xF, 0xC, fun _ => .pwmMap)]

/-- The first row of a table that `sel` matches: `(sel & mask) == match` (R59). -/
def findRow (sel : Sel) : List (Sel × Sel × (Sel → Instr)) → Option Instr
  | [] => none
  | (mask, value, build) :: rest =>
      if sel &&& mask == value then some (build sel) else findRow sel rest

/-- Decode a selector; a value that matches no row is reserved (R59, R60, R63). -/
def decode (sel : Sel) : Except DecodeError Instr :=
  match findRow sel selectorTable with
  | some i => .ok i
  | none => .error (.selReserved sel)

/-- Encode an operation as its selector (R59). -/
def encode : Instr → Sel
  | .decode => 0b0000
  | .encPlain u => 0b0100 ||| unitBit u
  | .encDiff u => 0b0101 ||| unitBit u
  | .segLut => 0b1000
  | .pwmMap => 0b1100

/-- The selector that a table word holds: the selector is the word's four bits, and a word with a bit above them is no
selector (R63). -/
def selOfWord (w : Nat) : Option Sel :=
  if w < 16 then some (BitVec.ofNat 4 w) else none

/-- The operation that the decoder reads from an opcode-table word. The selector is 4 bits in every row, so the number
of bits the table gives the row changes nothing. -/
def decodeTableWord (_nbits w : Nat) : Option Instr :=
  match selOfWord w with
  | none => none
  | some sel =>
    match decode sel with
    | .ok i => some i
    | .error _ => none

/-- A 1-bit port value as a word. -/
def bitWord (b : Bool) : Nat := if b then 1 else 0

/-- An operation as the sequence of its words: the selector, then the operand port values in the order of R59
(95_test_vectors.md section 3). -/
def encodeOperation (o : Operation) : List Nat :=
  (encode o.instr).toNat ::
    match o with
    | .decode b0 b1 ok => [b0.toNat, b1.toNat, bitWord ok]
    | .encPlain _ v => [v.toNat]
    | .encDiff _ v => [v.toNat]
    | .segLut g => [g.toNat]
    | .pwmMap d => [d.toNat]

/-- Read one word as the value of a port `n` bits wide (R35). -/
def portValue (n w : Nat) : Except DecodeError (BitVec n) :=
  if w < 2 ^ n then .ok (BitVec.ofNat n w) else .error (.tooWide n w)

/-- Read one operand word. -/
def readOperand (n : Nat) : List Nat → Except DecodeError (BitVec n × List Nat)
  | [] => .error .missingOperand
  | w :: rest =>
    match portValue n w with
    | .ok v => .ok (v, rest)
    | .error e => .error e

/-- Read the operands that an operation takes (R59), and the words after them. -/
def readOperands (i : Instr) (ws : List Nat) : Except DecodeError (Operation × List Nat) :=
  match i with
  | .decode => do
      let (b0, ws) ← readOperand 8 ws
      let (b1, ws) ← readOperand 8 ws
      let (ok, ws) ← readOperand 1 ws
      .ok (.decode b0 b1 (ok.getLsbD 0), ws)
  | .encPlain u => do
      let (v, ws) ← readOperand 32 ws
      .ok (.encPlain u v, ws)
  | .encDiff u => do
      let (v, ws) ← readOperand 32 ws
      .ok (.encDiff u v, ws)
  | .segLut => do
      let (g, ws) ← readOperand 5 ws
      .ok (.segLut g, ws)
  | .pwmMap => do
      let (d, ws) ← readOperand 32 ws
      .ok (.pwmMap d, ws)

/-- Decode the operation at the head of a word sequence, and the words after it. -/
def decodeOperation : List Nat → Except DecodeError (Operation × List Nat)
  | [] => .error .noSelector
  | w :: rest =>
    match portValue 4 w with
    | .error e => .error e
    | .ok sel =>
      match decode sel with
      | .error e => .error e
      | .ok i => readOperands i rest

/-- Decode at most `fuel` operations of a word sequence. -/
def decodeProgramUpTo : Nat → List Nat → Except DecodeError (List Operation)
  | _, [] => .ok []
  | 0, _ :: _ => .error .missingOperand
  | fuel + 1, w :: ws =>
    match decodeOperation (w :: ws) with
    | .error e => .error e
    | .ok (o, rest) =>
      match decodeProgramUpTo fuel rest with
      | .error e => .error e
      | .ok os => .ok (o :: os)

/-- Decode a whole program of operations. -/
def decodeProgram (ws : List Nat) : Except DecodeError (List Operation) :=
  decodeProgramUpTo ws.length ws

/-- A program of operations as its words. -/
def encodeProgram (os : List Operation) : List Nat :=
  os.flatMap encodeOperation

end Sys2Proof
end

