-- ==== Sys2Proof/Machine/State.lean ====
section
/-! DEFINITION. The state of the model as plain data: the block's ports (10_state.md R16 to R20), the constant
configuration (R15), the host-side state (R25 to R28), and what the host has still to issue (R12, R40). -/

namespace Sys2Proof.Machine

/-- The units that drive outputs (R2, R18). -/
inductive BlockUnit where
  | dec
  | enc
  | lut
  | pwm
  deriving DecidableEq, Repr

/-- The outputs of DEC (R16). -/
structure DecOut where
  /-- `dec_valid` -/
  valid : Bool
  /-- `dec_q4` -/
  q4 : BitVec 13
  /-- `dec_neg` -/
  neg : Bool
  /-- `dec_celsius` -/
  celsius : Flt
  /-- `dec_status` -/
  status : StatusCode
  deriving DecidableEq, Repr

/-- The outputs of ENC (R17). -/
structure EncOut where
  /-- `enc_d[0..4]`: tens, ones, tenths, hundredths, thousandths -/
  d : Vector (BitVec 4) 5
  /-- `enc_dseg[0..4]` -/
  dseg : Vector SegPattern 5
  /-- `enc_useg` -/
  useg : SegPattern
  /-- `enc_sseg` -/
  sseg : SegPattern
  /-- `enc_dp` -/
  dp : BitVec 5
  /-- `enc_neg` -/
  neg : Bool
  /-- `enc_blank` -/
  blank : Bool
  /-- `enc_ovf` -/
  ovf : Bool
  /-- `enc_inv` -/
  inv : Bool
  /-- `enc_status` -/
  status : StatusCode
  deriving DecidableEq, Repr

/-- The outputs of LUT under SEGLUT (R18). -/
structure LutOut where
  /-- `lut_seg` -/
  seg : SegPattern
  /-- `lut_status` -/
  status : StatusCode
  deriving DecidableEq, Repr

/-- The outputs of PWM (R19). -/
structure PwmOut where
  /-- `pwm_ch0` -/
  ch0 : Duty
  /-- `pwm_ch1` -/
  ch1 : Duty
  /-- `pwm_ch2` -/
  ch2 : Duty
  /-- `pwm_inv` -/
  inv : Bool
  /-- `pwm_status` -/
  status : StatusCode
  deriving DecidableEq, Repr

/-- The host's operating modes (R25). -/
inductive Mode where
  | idle
  | live
  | calibrate
  deriving DecidableEq, Repr

/-- A read transaction of the host's on the sensor's bus (R35, R37). -/
structure SensorRead where
  /-- the 7-bit device address -/
  device : BitVec 7
  /-- the register address written first -/
  reg : Byte
  /-- the number of bytes read -/
  count : Nat
  deriving DecidableEq, Repr

/-- The state that the host keeps around the block (R25 to R28). No operation of the block reads or writes it. -/
structure HostState where
  /-- `Mode` (R25) -/
  mode : Mode
  /-- whether the host is in the show-difference sub-loop of Calibrate (R28, R44, R45) -/
  inDifference : Bool
  /-- `Baseline` (R26) -/
  baseline : Flt
  /-- the readings so far of a read_average(30) (R26, R44), oldest first -/
  samples : List Flt
  /-- `Display`: the patterns of the 9 positions (R27) -/
  display : Vector SegPattern 9
  /-- the display's decimal-point mask (R27) -/
  dpMask : BitVec 9
  /-- `Duty[0..2]` (R28) -/
  duty : Vector Duty 3
  /-- whether DECODE has been issued on the bytes of the last temperature read, and its reading is not yet taken as a
  sample: a result of an earlier tick is no reading of this one (R44, R46) -/
  readingReady : Bool
  /-- the read error that the host surfaces: "no reading available this tick" (R46) -/
  readError : Bool
  /-- the identity diagnostic: whether the last identity byte differed from P_ID_EXPECTED (R37, R70, R109) -/
  idMismatch : Bool
  /-- the last read that the host put on the sensor's bus (R37) -/
  lastRead : Option SensorRead
  deriving DecidableEq, Repr

/-- The whole state. The block itself holds none (R14): the input ports hold what the host presents, and each result is
what the unit's last operation drove, `none` before its first operation (R114). -/
structure State where
  /-- P_SEG_LUT, P_MODE_LETTERS and P_SEG_BITS: fixed before the first operation, never written (R15, R113) -/
  config : Config
  /-- `sel` (R20) -/
  sel : Sel
  /-- `dec_b0` (R16) -/
  decB0 : Byte
  /-- `dec_b1` (R16) -/
  decB1 : Byte
  /-- `dec_ok` (R16) -/
  decOk : Bool
  /-- `enc_v` (R17) -/
  encV : Flt
  /-- `enc_unit` (R17) -/
  encUnit : TempUnit
  /-- `enc_path` (R17) -/
  encPath : EncPath
  /-- `lut_g` (R18) -/
  lutG : GlyphIndex
  /-- `pwm_d` (R19) -/
  pwmD : Flt
  /-- the result of the last DECODE -/
  dec : Option DecOut
  /-- the result of the last ENC.PLAIN or ENC.DIFF -/
  enc : Option EncOut
  /-- the result of the last SEGLUT -/
  lut : Option LutOut
  /-- the result of the last PWMMAP -/
  pwm : Option PwmOut
  /-- the host-side state -/
  host : HostState
  /-- the MODEL's own: the steps that the host has still to take, next one first (R12, R40; log 2) -/
  program : List HostStep
  /-- the MODEL's own: the number of the next free value (log 6) -/
  draws : Nat
  deriving DecidableEq, Repr

/-- Why the model stops with a fault. Both kinds are faults of the host: no operation of the block faults (R93). -/
inductive Fault where
  /-- The host read an output of a unit before the unit's first operation (R114, U11). Raised by the host's reads of
  results. Safe: the model stops where the spec gives the output no value. -/
  | undrivenOutput (u : BlockUnit)
  /-- The host found status code 7 on a unit, which no operation drives (R94, U12). Raised by the host's reads of
  results. Safe: no run that the block alone drives gets there. -/
  | statusNeverDriven (u : BlockUnit)
  deriving DecidableEq, Repr

/-- Why the model refuses a step. A run that holds a refusal proves nothing (R99). -/
inductive Refusal where
  /-- An operation that the model gives no meaning. No arm of exec raises it. Safe. -/
  | notModelled (mnemonic : String)
  /-- SEL_RESERVED, code 6: a reserved selector; no unit is evaluated and no output driven (R60, R99, U1). Raised by the
  step that issues the operation. Safe. -/
  | selReserved (sel : Sel)
  /-- LUT_RESERVED, code 5: SEGLUT of an index that no entry is defined for; `lut_seg` is not driven (R85, R99, U2).
  Raised by SEGLUT. Safe. -/
  | lutReserved (g : GlyphIndex)
  /-- A sensor read that the source does not define (R34, U14). Raised by the host's MemRead. Safe. -/
  | sensorRead (reg : Byte) (n : Nat)
  /-- A completed sensor read with another number of bytes than it asked for: no such transaction exists (R37). Raised
  by the host's MemRead. Safe. -/
  | sensorReply (n got : Nat)
  /-- Setting Baseline outside Calibrate, or to another average than that of 30 readings (R26; E5). Raised by the host's
  setBaseline. Safe. -/
  | noCalibration
  /-- Forming the difference outside the show-difference sub-loop (R44; E5). Raised by the host's passDifference.
  Safe. -/
  | noDifference
  deriving DecidableEq, Repr

/-- The host's state after reset (R29, R115): Idle, Baseline 0, all duties 0, the display cleared, with the free pattern
and mask number 0 (U13; log 6). -/
def HostState.reset : HostState where
  mode := .idle
  inDifference := false
  baseline := fltZero
  samples := []
  display := Vector.ofFn (Config.clearedPattern 0)
  dpMask := Config.clearedMask 0
  duty := Vector.replicate 3 0
  readingReady := false
  readError := false
  idMismatch := false
  lastRead := none

/-- The machine after reset: the block has nothing to reset (R112), no unit has a result (R114), the configuration is
the default one (R113), the host is Idle (R115). The input ports, to which the spec gives no reset value (R29), hold
zeros (DESIGN CHOICE, log 1); no step is issued yet (DESIGN CHOICE, log 2). -/
def State.reset : State where
  config := defaultConfig
  sel := 0
  decB0 := 0
  decB1 := 0
  decOk := false
  encV := fltZero
  encUnit := .celsius
  encPath := .plain
  lutG := 0
  pwmD := fltZero
  dec := none
  enc := none
  lut := none
  pwm := none
  host := HostState.reset
  program := []
  draws := 1

end Sys2Proof.Machine
end

