-- ==== Sys2Proof/Machine/Ops.lean ====
section
/-! DEFINITION. The named operations over the ports and results: driving a unit's outputs, presenting inputs, the host's
reads of results, and the free values. No operation traps (60_exceptions.md R93, R102, R103): what a unit reports, it
reports on its own status output, so there is no exception entry and no return from one. -/

namespace Sys2Proof.Machine

/-- One evaluation of DEC drives all of DEC's outputs (R12). -/
def driveDec (o : DecOut) (s : State) : State := { s with dec := some o }

/-- One evaluation of ENC drives all of ENC's outputs (R12). -/
def driveEnc (o : EncOut) (s : State) : State := { s with enc := some o }

/-- One evaluation of LUT drives all of LUT's outputs (R12). -/
def driveLut (o : LutOut) (s : State) : State := { s with lut := some o }

/-- One evaluation of PWM drives all of PWM's outputs (R12). -/
def drivePwm (o : PwmOut) (s : State) : State := { s with pwm := some o }

/-- The selector's fields drive `enc_unit` and `enc_path` (R59). -/
def driveEncSelect (u : TempUnit) (p : EncPath) (s : State) : State := { s with encUnit := u, encPath := p }

/-- New sensor bytes end what the host had read before: no reading of this tick is there yet, and no error of this tick
(R46). -/
def awaitReading (h : HostState) : HostState := { h with readingReady := false, readError := false }

/-- The host surfaces a read error, "no reading available this tick", and uses no decoder output (R46, U7). -/
def surfaceReadError (h : HostState) : HostState := { h with readError := true }

/-- The host issues DECODE on the bytes that it last presented, and so has a result of this tick; no other selector
changes what it has (R44, R46). Issued again on the same bytes, as a single step, it counts as a result anew (DESIGN CHOICE,
log 17). -/
def noteIssued (sel : Sel) (h : HostState) : HostState :=
  { h with readingReady := h.readingReady || sel == encode .decode }

/-- The host takes the reading as a sample; the next sample needs a DECODE of its own, which the set-baseline action issues
after a read of its own (R44; log 17). -/
def addSample (c : Flt) (h : HostState) : HostState := { h with samples := h.samples ++ [c], readingReady := false }

/-- The host puts a read on the bus, at the sensor's device address (R37). -/
def putRead (reg : Byte) (n : Nat) (h : HostState) : HostState :=
  { h with lastRead := some { device := Config.sensorAddr, reg := reg, count := n } }

/-- The host compares the identity byte with P_ID_EXPECTED; a mismatch is logged, not an error (R37, R70). -/
def logIdentity (b : Byte) (h : HostState) : HostState := { h with idMismatch := b != Config.idExpected }

/-- The host presents a sensor word and whether its read completed (R16, R33). -/
def presentSensor (b0 b1 : Byte) (ok : Bool) (s : State) : State :=
  { s with decB0 := b0, decB1 := b1, decOk := ok, host := awaitReading s.host }

/-- The host presents `dec_ok` = 0; the bytes stay what the host last held (R46; program P4, step 4). -/
def presentFailedRead (s : State) : State := { s with decOk := false, host := awaitReading s.host }

/-- The host presents `enc_v`. -/
def presentValue (v : Flt) (s : State) : State := { s with encV := v }

/-- The host presents `lut_g`. -/
def presentGlyph (g : GlyphIndex) (s : State) : State := { s with lutG := g }

/-- The host presents `pwm_d`. -/
def presentDifference (d : Flt) (s : State) : State := { s with pwmD := d }

/-- The host issues a selector (R20, R40). -/
def presentSel (sel : Sel) (s : State) : State := { s with sel := sel, host := noteIssued sel s.host }

/-- The host-side state is replaced; no port changes. -/
def withHost (h : HostState) (s : State) : State := { s with host := h }

/-- The host-side state is replaced by one that used up the next free value. -/
def withHostDraw (h : HostState) (s : State) : State := { s with host := h, draws := s.draws + 1 }

/-- The steps that the host has still to take. -/
def withProgram (p : List HostStep) (s : State) : State := { s with program := p }

/-- The host's read of a result: a unit that has not run has none (R114, U11), and status code 7 is never driven
(U12). -/
def readResult {α : Type} (u : BlockUnit) (status : α → StatusCode) : Option α → Except Fault α
  | none => .error (.undrivenOutput u)
  | some o => if status o = statusNeverDriven then .error (.statusNeverDriven u) else .ok o

/-- The host's read of DEC's result. -/
def readDec (s : State) : Except Fault DecOut := readResult .dec DecOut.status s.dec

/-- The host's read of ENC's result. -/
def readEnc (s : State) : Except Fault EncOut := readResult .enc EncOut.status s.enc

/-- The host's read of LUT's result. -/
def readLut (s : State) : Except Fault LutOut := readResult .lut LutOut.status s.lut

/-- The host's read of PWM's result. -/
def readPwm (s : State) : Except Fault PwmOut := readResult .pwm PwmOut.status s.pwm

/-- The reading of this tick, if there is one: DEC's result, where DECODE has been issued since the last temperature read
and `dec_valid` = 1. The host uses no other decoder output as a temperature (R46, R69, U7). -/
def readCelsius (s : State) : Except Fault (Option Flt) :=
  match readDec s with
  | .error f => .error f
  | .ok o => .ok (if s.host.readingReady && o.valid then some o.celsius else none)

/-- Go on with what the host read, or stop with the fault. -/
def withRead {α : Type} (r : Except Fault α) (k : α → Host.Outcome State Fault Refusal) :
    Host.Outcome State Fault Refusal :=
  match r with
  | .ok a => k a
  | .error f => .fault f

/-- Go on with the reading of this tick, or surface the read error and do nothing else (R46). -/
def withReading (s : State) (k : Flt → State) : Host.Outcome State Fault Refusal :=
  withRead (readCelsius s) fun
    | some c => .next (k c)
    | none => .next (withHost (surfaceReadError s.host) s)

/-- The status code that a refusal stands for (R94, R99); the host's own refusals have none. -/
def refusalStatus : Refusal → Option Status
  | .selReserved _ => some .selReserved
  | .lutReserved _ => some .lutReserved
  | _ => none

end Sys2Proof.Machine
end

