-- ==== Sys2Proof/Machine/Operands.lean ====
section
/-! DEFINITION. Every operand of an operation, read from the port that the host presents it on (30_encoding.md R59,
R61). -/

namespace Sys2Proof.Machine

/-- The sensor word: big-endian, the first byte read is the most significant (20_memory.md R31). -/
def sensorWord (b0 b1 : Byte) : BitVec 16 := b0 ++ b1

/-- DECODE's operands: the sensor word if the host's read completed, none if it failed (R16, R69). -/
def sensorOperand (s : State) : Option (BitVec 16) :=
  if s.decOk then some (sensorWord s.decB0 s.decB1) else none

/-- ENC's operand: the value (R17). -/
def valueOperand (s : State) : Flt := s.encV

/-- ENC's unit, as the selector drives it (R17, R59). -/
def unitOperand (s : State) : TempUnit := s.encUnit

/-- ENC's path, as the selector drives it (R17, R59). -/
def pathOperand (s : State) : EncPath := s.encPath

/-- SEGLUT's operand (R18). -/
def glyphOperand (s : State) : GlyphIndex := s.lutG

/-- PWMMAP's operand (R19). -/
def differenceOperand (s : State) : Flt := s.pwmD

end Sys2Proof.Machine
end

