-- ==== Sys2Proof/Machine/Decoder.lean ====
section
/-! DEFINITION. DEC: the temperature decoder (40_decoder.md). -/

namespace Sys2Proof.Machine

/-- `t` = w >>u 3: the shift is logical (R64, C1). -/
def shiftedWord (w : BitVec 16) : Nat := (w >>> shift).toNat

/-- `q`, the temperature in sixteenths of a degree: 8192 is subtracted when bit 15 is set (R64). -/
def sixteenths (w : BitVec 16) : Int :=
  if decNegFlag w then (shiftedWord w : Int) - (offset : Int) else (shiftedWord w : Int)

/-- `fl(q / 16)` (R64). -/
def celsiusOf (q : Int) : Flt := fl (q * ((unitsPerOne / divisor : Nat) : Int))

/-- The outputs for a sensor word (R64). -/
def decReading (w : BitVec 16) : DecOut where
  valid := true
  q4 := BitVec.ofInt resolutionBits (sixteenths w)
  neg := decNegFlag w
  celsius := celsiusOf (sixteenths w)
  status := statusCode .ok

/-- The outputs when the host's read failed: no reading (R69, R95). -/
def decNoReading : DecOut where
  valid := false
  q4 := 0
  neg := false
  celsius := fltZero
  status := statusCode .decNoReading

/-- DEC as a function of its inputs (R68). -/
def decOutput : Option (BitVec 16) → DecOut
  | none => decNoReading
  | some w => decReading w

/-- DECODE (R64). -/
def execDecode (s : State) : Host.Outcome State Fault Refusal :=
  .next (driveDec (decOutput (sensorOperand s)) s)

end Sys2Proof.Machine
end

