-- ==== Sys2Proof/Machine/Encoder.lean ====
section
/-! DEFINITION. ENC: the digit encoder (41_digit_encoder.md), without the table lookup on its own. -/

namespace Sys2Proof.Machine

/-- `Scale(v)`: p = fl(|v| × 1000), one rounding (R73). -/
def scaled (v : Flt) : Flt := fl ((fltUnits (fltAbs v) * scale : Nat) : Int)

/-- `Valid(v)`: v is finite and so is fl(|v| × 1000) (R71). -/
def encodable (v : Flt) : Bool := isFinite v && isFinite (scaled v)

/-- `fl(p + 0.5)`: the rounding bias, added in P_FLT (R82). -/
def biased (p : Flt) : Flt := fl ((fltUnits p + unitsPerOne / 2 : Nat) : Int)

/-- The scaled integer `m` of a path: the plain path truncates, the difference path adds 0.5 first (R81, R82). -/
def scaledInteger (path : EncPath) (v : Flt) : Nat :=
  match path with
  | .plain => fltTrunc (scaled v)
  | .difference => fltTrunc (biased (scaled v))

/-- One decimal digit of `m`: its place is `ten`, a power of ten (R74). -/
def digitAt (m ten : Nat) : BitVec 4 := BitVec.ofNat 4 (m / ten % 10)

/-- `Digits(m)`: tens, ones, tenths, hundredths, thousandths (R74). -/
def digits (m : Nat) : Vector (BitVec 4) 5 :=
  #v[digitAt m 10000, digitAt m 1000, digitAt m 100, digitAt m 10, digitAt m 1]

/-- The pattern of a digit: the glyph index of digit k is k (R55, R77). -/
def digitSeg (cfg : Config) (d : BitVec 4) : SegPattern := drawn cfg (d.setWidth 5)

/-- `DigitSegs(d, blank)`: only the tens position is ever blanked (R76, R77). -/
def digitSegs (cfg : Config) (d : Vector (BitVec 4) 5) (blank : Bool) : Vector SegPattern 5 :=
  #v[if blank then blankPattern else digitSeg cfg d[0], digitSeg cfg d[1], digitSeg cfg d[2], digitSeg cfg d[3],
     digitSeg cfg d[4]]

/-- `UnitSeg(unit)`: C or F; the value is not converted (R78). -/
def unitSeg (cfg : Config) : TempUnit → SegPattern
  | .celsius => drawn cfg glyphC
  | .fahrenheit => drawn cfg glyphF

/-- `SignSeg(neg)`: minus or blank, on both paths (R79). -/
def signSeg (cfg : Config) (neg : Bool) : SegPattern := if neg then drawn cfg glyphMinus else blankPattern

/-- The outputs for a value that ENC cannot render (R71, R96). -/
def encInvalid (cfg : Config) (unit : TempUnit) : EncOut where
  d := Vector.replicate 5 0
  dseg := Vector.replicate 5 blankPattern
  useg := unitSeg cfg unit
  sseg := blankPattern
  dp := 0
  neg := false
  blank := false
  ovf := false
  inv := true
  status := statusCode .encInvalid

/-- The outputs for a sign and a scaled integer (R81, R82, from the digits on). -/
def encRendered (cfg : Config) (path : EncPath) (unit : TempUnit) (neg : Bool) (m : Nat) : EncOut where
  d := digits m
  dseg := digitSegs cfg (digits m) (encBlankFlag path (digitAt m 10000))
  useg := unitSeg cfg unit
  sseg := signSeg cfg neg
  dp := pointAfterOnes
  neg := neg
  blank := encBlankFlag path (digitAt m 10000)
  ovf := encOvfFlag m
  inv := false
  status := statusCode (encStatus (encOvfFlag m))

/-- ENC as a function of its inputs and the table (R84). ENC_INVALID comes before ENC_OVERFLOW (R100). -/
def encOutput (cfg : Config) (path : EncPath) (v : Flt) (unit : TempUnit) : EncOut :=
  if encodable v then encRendered cfg path unit (encNegFlag v) (scaledInteger path v) else encInvalid cfg unit

/-- One evaluation of ENC on the values that its ports carry (R12). -/
def evalEncoder (s : State) : State :=
  driveEnc (encOutput s.config (pathOperand s) (valueOperand s) (unitOperand s)) s

/-- The selector's fields drive `enc_unit` and `enc_path`, and ENC is evaluated (R59). -/
def runEncoder (path : EncPath) (u : TempUnit) (s : State) : State :=
  evalEncoder (driveEncSelect u path s)

/-- ENC.PLAIN (R81). -/
def execEncPlain (u : TempUnit) (s : State) : Host.Outcome State Fault Refusal :=
  .next (runEncoder .plain u s)

/-- ENC.DIFF (R82). -/
def execEncDiff (u : TempUnit) (s : State) : Host.Outcome State Fault Refusal :=
  .next (runEncoder .difference u s)

end Sys2Proof.Machine
end

