-- ==== Sys2Proof/Machine/Indicator.lean ====
section
/-! DEFINITION. PWM: the indicator mapper (42_pwm_mapper.md). -/

namespace Sys2Proof.Machine

/-- The outputs with the given duties for a difference that is not a NaN (R87). -/
def pwmDuties (ch0 ch1 ch2 : Duty) : PwmOut where
  ch0 := ch0
  ch1 := ch1
  ch2 := ch2
  inv := false
  status := statusCode .ok

/-- The outputs for a NaN: all channels off (R90, R98). -/
def pwmInvalid : PwmOut where
  ch0 := 0
  ch1 := 0
  ch2 := 0
  inv := true
  status := statusCode .pwmInvalid

/-- PWM as a function of its input (R87, R92): the three comparisons are IEEE comparisons with no tolerance (R89). -/
def pwmOutput (d : Flt) : PwmOut :=
  if pwmInvFlag d then pwmInvalid
  else if fltLt d fltZero then pwmDuties dutyFull 0 0
  else if fltEq d fltZero then pwmDuties 0 dutyMin 0
  else pwmDuties 0 0 dutyFull

/-- PWMMAP (R87). -/
def execPwmMap (s : State) : Host.Outcome State Fault Refusal :=
  .next (drivePwm (pwmOutput (differenceOperand s)) s)

end Sys2Proof.Machine
end

