-- ==== Sys2Proof/Machine/Lookup.lean ====
section
/-! DEFINITION. SEGLUT: the segment table on its own (41_digit_encoder.md R85). -/

namespace Sys2Proof.Machine

/-- The outputs for an index that an entry is defined for (R85). -/
def lutOutput (seg : SegPattern) : LutOut where
  seg := seg
  status := statusCode .ok

/-- SEGLUT (R85): an index that no entry is defined for is refused, and `lut_seg` is not driven (R99). -/
def execSegLut (s : State) : Host.Outcome State Fault Refusal :=
  match lut s.config (glyphOperand s) with
  | some seg => .next (driveLut (lutOutput seg) s)
  | none => .refused (.lutReserved (glyphOperand s))

end Sys2Proof.Machine
end

