-- ==== Sys2Proof/Machine/Dispatch.lean ====
section
/-! DEFINITION. One arm per operation of the opcode table. -/

namespace Sys2Proof.Machine

def exec (i : Instr) (s : State) : Host.Outcome State Fault Refusal :=
  match i with
  | .decode => Sys2Proof.Machine.execDecode s
  | .encPlain u => Sys2Proof.Machine.execEncPlain u s
  | .encDiff u => Sys2Proof.Machine.execEncDiff u s
  | .segLut => Sys2Proof.Machine.execSegLut s
  | .pwmMap => Sys2Proof.Machine.execPwmMap s

end Sys2Proof.Machine
end

