-- ==== Sys2Proof/Machine/Host.lean ====
section
/-! DEFINITION. The host's own steps around the block (20_memory.md R33, R34, R37 to R39, R44 to R46; 10_state.md R25 to
R28; 70_reset_and_hazards.md R115). None of them evaluates a unit. -/

namespace Sys2Proof.Machine

/-- The ENC output of each place in P_LAYOUT's order: the unit, the sign and the five digits, then what the two positions
left over show (R38, D23; log 7). -/
def layoutSlot : Fin 9 → Option EncGlyph
  | 0 => some .unit
  | 1 => some .sign
  | 2 => some (.digit 0)
  | 3 => some (.digit 1)
  | 4 => some (.digit 2)
  | 5 => some (.digit 3)
  | 6 => some (.digit 4)
  | 7 => Config.spareGlyph 0
  | 8 => Config.spareGlyph 1

/-- P_LAYOUT: the ENC output that a display position shows, if any. The order is open, but every ENC output has a
position (R38). -/
def layout (p : Fin 9) : Option EncGlyph := layoutSlot (Config.positionOrder p)

/-- The bit of the decimal-point mask that belongs to a display position: one bit per position (R27, R35). -/
def maskBit (p : Fin 9) : Fin 9 := Config.maskOrder p

/-- The pattern that a glyph of ENC's result shows (R38). -/
def glyphPattern (o : EncOut) : EncGlyph → SegPattern
  | .unit => o.useg
  | .sign => o.sseg
  | .digit i => o.dseg[i.val]

/-- The display after ENC's outputs are written to the positions that P_LAYOUT gives them; a position with no ENC output
keeps its pattern (R38, D23). -/
def displayed (o : EncOut) (old : Vector SegPattern 9) : Vector SegPattern 9 :=
  Vector.ofFn fun p =>
    match layout p with
    | some g => glyphPattern o g
    | none => old[p.val]

/-- Whether a position shows a decimal point: it shows a digit that `enc_dp` marks (R58). -/
def pointShown (o : EncOut) (p : Fin 9) : Bool :=
  match layout p with
  | some (.digit i) => o.dp.getLsbD i.val
  | _ => false

/-- `enc_dp` mapped onto the display's 9-bit mask under P_LAYOUT (R38, R58, D23). -/
def displayMask (o : EncOut) : BitVec 9 :=
  (List.finRange 9).foldl
    (fun mask p => if pointShown o p then mask ||| (1#9 <<< (maskBit p).val) else mask) 0#9

/-- The three duties that the host writes to the device: channel k receives `pwm_ch<k>` (R39). -/
def dutiesOf (o : PwmOut) : Vector Duty 3 := #v[o.ch0, o.ch1, o.ch2]

/-- All indicator channels off (R28, R45). -/
def dutiesOff : Vector Duty 3 := Vector.replicate 3 0

/-- The host clears the display, with the `n`-th free pattern and mask (R27, U13). -/
def clearDisplay (n : Nat) (h : HostState) : HostState :=
  { h with display := Vector.ofFn (Config.clearedPattern n), dpMask := Config.clearedMask n }

/-- Idle entry: the display is cleared, Baseline and all duties are 0 (R26, R27, R28, R115). The readings of an average in
progress are kept (DESIGN CHOICE, log 16). -/
def enterIdle (n : Nat) (h : HostState) : HostState :=
  { clearDisplay n h with mode := .idle, baseline := fltZero, duty := dutiesOff }

/-- The host leaves the show-difference sub-loop: all duties are 0; whether Mode is then Live or Calibrate is open
(R45, C8, U19). -/
def leaveDifference (n : Nat) (h : HostState) : HostState :=
  { h with
    inDifference := false
    mode := if Config.liveAfterDifference n then .live else .calibrate
    duty := dutiesOff }

/-- The button codes (95_test_vectors.md E5): one bit each, bit 0 Idle, bit 4 Live, bit 2 Calibrate, bit 1 set-baseline,
bit 3 show-difference. -/
def codeIdle : Nat := 1
/-- Bit 4 (E5). -/
def codeLive : Nat := 16
/-- Bit 2 (E5). -/
def codeCalibrate : Nat := 4
/-- Bit 1 (E5). -/
def codeSetBaseline : Nat := 2
/-- Bit 3 (E5). -/
def codeShowDifference : Nat := 8

/-- A button code outside the show-difference sub-loop (R25, R115, E5). A code that the mode does not recognise, and the
code of the mode that the host is in, leave the state unchanged (R25, R111; log 8). A change of Mode keeps the readings of
an average in progress; the set-baseline code drops them (DESIGN CHOICE, log 16). -/
def buttonInMode (code : Nat) (s : State) : State :=
  if code = codeIdle then
    if s.host.mode = .idle then s else withHostDraw (enterIdle s.draws s.host) s
  else if code = codeLive then
    if s.host.mode = .live then s else withHost { s.host with mode := .live } s
  else if code = codeCalibrate then
    match s.host.mode with
    | .idle => withHost { s.host with mode := .calibrate } s
    | .live => withHostDraw { clearDisplay s.draws s.host with mode := .calibrate } s
    | .calibrate => s
  else if code = codeSetBaseline ∧ s.host.mode = .calibrate then withHost { s.host with samples := [] } s
  else if code = codeShowDifference ∧ s.host.mode = .calibrate then withHost { s.host with inDifference := true } s
  else s

/-- A button code (R25). In the show-difference sub-loop only the Live- and Idle-selecting codes are recognised: they
leave it (C8). -/
def button (code : Nat) (s : State) : State :=
  if s.host.inDifference then
    if code = codeLive ∨ code = codeIdle then withHostDraw (leaveDifference s.draws s.host) s else s
  else buttonInMode code s

/-- A completed or failed 2-byte temperature read: the host presents the bytes with `dec_ok` = 1, or `dec_ok` = 0
(R33, R46). -/
def temperatureRead (reply : Option (List Byte)) (s : State) : Host.Outcome State Fault Refusal :=
  match reply with
  | none => .next (presentFailedRead s)
  | some [b0, b1] => .next (presentSensor b0 b1 true s)
  | some bytes => .refused (.sensorReply 2 bytes.length)

/-- The identity read: the byte is compared with P_ID_EXPECTED, which is logged; no input of DEC changes, whatever byte it
returns (R37, R70). -/
def identityRead (reply : Option (List Byte)) (s : State) : Host.Outcome State Fault Refusal :=
  match reply with
  | none => .next s
  | some [b] => .next (withHost (logIdentity b s.host) s)
  | some bytes => .refused (.sensorReply 1 bytes.length)

/-- `MemRead(reg, n)`: the host puts the read on the bus at P_SENSOR_ADDR. The source defines two reads; any other is
refused (R34, R37, U14). -/
def memRead (reg : Byte) (n : Nat) (reply : Option (List Byte)) (s : State) : Host.Outcome State Fault Refusal :=
  if reg = tempReg ∧ n = 2 then temperatureRead reply (withHost (putRead reg n s.host) s)
  else if reg = idReg ∧ n = 1 then identityRead reply (withHost (putRead reg n s.host) s)
  else .refused (.sensorRead reg n)

/-- Without a reading of this tick, surface the read error and skip the next `n` steps; otherwise go on (R46; program P4,
step 6). -/
def skipUnlessReading (n : Nat) (s : State) : Host.Outcome State Fault Refusal :=
  withRead (readCelsius s) fun
    | some _ => .next s
    | none => .next (withProgram (s.program.drop n) (withHost (surfaceReadError s.host) s))

/-- Pass the reading on to `enc_v` (R44). -/
def passCelsius (s : State) : Host.Outcome State Fault Refusal :=
  withReading s fun c => presentValue c s

/-- Pass the reading on to `enc_v` in Fahrenheit: the host converts, not ENC (R44, R78, D24). -/
def passFahrenheit (s : State) : Host.Outcome State Fault Refusal :=
  withReading s fun c => presentValue (Config.toFahrenheit c) s

/-- Add the reading to those of the average in progress; each sample has a DECODE of its own (R26, R44; log 17). As a single
step it does so in every Mode (DESIGN CHOICE, log 16). -/
def takeSample (s : State) : Host.Outcome State Fault Refusal :=
  withReading s fun c => withHost (addSample c s.host) s

/-- Set Baseline to the mean of 30 readings, in Calibrate (R26, R44, E5); how the host computes the mean is open (U22). -/
def setBaseline (s : State) : Host.Outcome State Fault Refusal :=
  if s.host.mode = .calibrate ∧ s.host.inDifference = false ∧ s.host.samples.length = averageCount then
    .next (withHostDraw
      { s.host with baseline := Config.hostMean s.draws s.host.samples, samples := [] } s)
  else .refused .noCalibration

/-- Pass Baseline to `enc_v` (R44, set-baseline). -/
def passBaseline (s : State) : Host.Outcome State Fault Refusal :=
  .next (presentValue s.host.baseline s)

/-- Pass `Baseline - current` to `enc_v` and `pwm_d`, in the show-difference sub-loop (R44, E5); how the host computes it
is open (U22). -/
def passDifference (s : State) : Host.Outcome State Fault Refusal :=
  if s.host.inDifference then
    withReading s fun c =>
      withHostDraw s.host
        (presentDifference (Config.hostDifference s.draws s.host.baseline c)
          (presentValue (Config.hostDifference s.draws s.host.baseline c) s))
  else .refused .noDifference

/-- Write ENC's outputs to the display (R38), whatever `enc_status` says of them (DESIGN CHOICE, log 18). -/
def writeDisplay (s : State) : Host.Outcome State Fault Refusal :=
  withRead (readEnc s) fun o =>
    .next (withHost { s.host with display := displayed o s.host.display, dpMask := displayMask o } s)

/-- Write PWM's outputs to the three channels (R39), whatever `pwm_status` says of them (DESIGN CHOICE, log 18). -/
def writeDuties (s : State) : Host.Outcome State Fault Refusal :=
  withRead (readPwm s) fun o => .next (withHost { s.host with duty := dutiesOf o } s)

/-- Write SEGLUT's pattern to a display position (R18, R38). -/
def writeGlyph (p : Fin 9) (s : State) : Host.Outcome State Fault Refusal :=
  withRead (readLut s) fun o => .next (withHost { s.host with display := s.host.display.set p.val o.seg } s)

end Sys2Proof.Machine
end

