-- ==== Sys2Proof/Machine/Flow.lean ====
section
/-! DEFINITION. The sequences in which the host uses the block (20_memory.md R44). The rows of R44's table for leaving the
show-difference sub-loop and for Idle entry are `leaveDifference` and `enterIdle`. -/

namespace Sys2Proof.Machine

/-- What the bus returns to a 2-byte read. -/
def replyBytes (reply : Option (Byte × Byte)) : Option (List Byte) := reply.map fun b => [b.1, b.2]

/-- `MemRead(0x00, 2)`, DECODE, and then `use`, which a failed read skips (R44, R46; program P4, steps 4 to 6). -/
def readingSteps (reply : Option (Byte × Byte)) (use : List HostStep) : List HostStep :=
  .memRead tempReg 2 (replyBytes reply) :: .operation (encode .decode) :: .skipUnlessReading use.length :: use

/-- The reading passed on in the unit selected: P_F_CONV is applied if Fahrenheit is (R44, D24). -/
def passReading : TempUnit → HostStep
  | .celsius => .passCelsius
  | .fahrenheit => .passFahrenheit

/-- A Live tick: ENC.PLAIN's unit is the auxiliary selector input (R44). The display is written whatever ENC's status is
(DESIGN CHOICE, log 18). -/
def liveTickSteps (reply : Option (Byte × Byte)) (aux : TempUnit) : List HostStep :=
  readingSteps reply [passReading aux, .operation (encode (.encPlain aux)), .writeDisplay]

/-- A show-difference tick: ENC.DIFF, in Celsius, and PWMMAP of the same difference (R44, D27). The display and the duties
are written whatever the two statuses are (DESIGN CHOICE, log 18). -/
def differenceTickSteps (reply : Option (Byte × Byte)) : List HostStep :=
  readingSteps reply
    [.passDifference, .operation (encode (.encDiff .celsius)), .operation (encode .pwmMap), .writeDisplay, .writeDuties]

/-- One read, one DECODE and one sample for each reply, then `after`; a failed read skips all that is left (R44, R46;
log 9). -/
def samplingSteps : List (Option (Byte × Byte)) → List HostStep → List HostStep
  | [], after => after
  | reply :: replies, after => readingSteps reply (.takeSample :: samplingSteps replies after)

/-- The set-baseline action: 30 readings, their mean as Baseline, and Baseline shown in Celsius (R44, D27), whatever ENC's
status is (DESIGN CHOICE, log 18). -/
def baselineSteps (replies : Vector (Option (Byte × Byte)) 30) : List HostStep :=
  .button codeSetBaseline ::
    samplingSteps replies.toList
      [.setBaseline, .passBaseline, .operation (encode (.encPlain .celsius)), .writeDisplay]

/-- What the host does in one tick of its control loop: the Live tick in Live, the show-difference tick in the sub-loop of
Calibrate, and nothing of the block's otherwise (R44). -/
def tickSteps (h : HostState) (reply : Option (Byte × Byte)) (aux : TempUnit) : List HostStep :=
  match h.mode with
  | .idle => []
  | .live => liveTickSteps reply aux
  | .calibrate => if h.inDifference then differenceTickSteps reply else []

/-- The set-baseline action is valid only in Calibrate (E5); elsewhere nothing happens (R111). -/
def baselineActionSteps (h : HostState) (replies : Vector (Option (Byte × Byte)) 30) : List HostStep :=
  if h.mode = .calibrate ∧ h.inDifference = false then baselineSteps replies else []

/-- The host takes up a sequence: its steps come before every other that is left (R40). -/
def enqueue (steps : List HostStep) (s : State) : State := withProgram (steps ++ s.program) s

end Sys2Proof.Machine
end

