-- ==== Sys2Proof/Machine/Issue.lean ====
section
/-! DEFINITION. What the host does next: an operation of the block, or a step of its own (20_memory.md R40). -/

namespace Sys2Proof.Machine

/-- What the head of the host's program asks for. -/
inductive Issue where
  /-- the host has issued nothing -/
  | nothing
  /-- an operation of the block, with the selector presented -/
  | operation (sel : Sel) (s : State)
  /-- a step of the host's own, already taken -/
  | hostStep (o : Host.Outcome State Fault Refusal)
  deriving Repr

/-- A host step that evaluates no unit, taken in a state from whose program it is already removed; `operation` is not
one of these and is handled by `nextIssue`. -/
def runHostStep (h : HostStep) (s : State) : Issue :=
  match h with
  | .operation sel => .operation sel (presentSel sel s)
  | .presentSensor b0 b1 ok => .hostStep (.next (presentSensor b0 b1 ok s))
  | .presentValue v => .hostStep (.next (presentValue v s))
  | .presentGlyph g => .hostStep (.next (presentGlyph g s))
  | .presentDifference d => .hostStep (.next (presentDifference d s))
  | .memRead reg n reply => .hostStep (memRead reg n reply s)
  | .skipUnlessReading n => .hostStep (skipUnlessReading n s)
  | .passCelsius => .hostStep (passCelsius s)
  | .passFahrenheit => .hostStep (passFahrenheit s)
  | .takeSample => .hostStep (takeSample s)
  | .setBaseline => .hostStep (setBaseline s)
  | .passBaseline => .hostStep (passBaseline s)
  | .passDifference => .hostStep (passDifference s)
  | .writeDisplay => .hostStep (writeDisplay s)
  | .writeDuties => .hostStep (writeDuties s)
  | .writeGlyph p => .hostStep (writeGlyph p s)
  | .button code => .hostStep (.next (button code s))
  | .tick reply aux => .hostStep (.next (enqueue (tickSteps s.host reply aux) s))
  | .baselineAction replies => .hostStep (.next (enqueue (baselineActionSteps s.host replies) s))

/-- The next step of the program: the head of the list, in the order issued (R40). -/
def nextIssue (s : State) : Issue :=
  match s.program with
  | [] => .nothing
  | h :: rest => runHostStep h (withProgram rest s)

end Sys2Proof.Machine
end

