-- ==== Sys2Proof/Machine/Step.lean ====
section
/-! DEFINITION. One step of the model: the next thing that the host issues (20_memory.md R40). -/

namespace Sys2Proof.Machine

/-- Issue one selector: decode it and evaluate the operation it names; a reserved selector is refused before any unit is
evaluated (R59, R60, R99, R100). -/
def runSelector (sel : Sel) (s : State) : Host.Outcome State Fault Refusal :=
  match decode sel with
  | .ok i => exec i s
  | .error _ => .refused (.selReserved sel)

/-- One step. With nothing issued the block does nothing: it takes no step of its own (R108). -/
def step (s : State) : Host.Outcome State Fault Refusal :=
  match nextIssue s with
  | .nothing => .next s
  | .operation sel s' => runSelector sel s'
  | .hostStep o => o

/-- Put the operation of an opcode-table word where `step` takes its next one: at the head of an otherwise empty
program. A word that is no selector puts nothing there. -/
def State.withFetchWord (s : State) (_nbits w : Nat) : State :=
  match selOfWord w with
  | some sel => { s with program := [.operation sel] }
  | none => { s with program := [] }

end Sys2Proof.Machine
end

