-- ==== Sys2Proof/Safety.lean ====
section
/-! DEFINITION. What a legal result is, what a legal state is, and the words that the statements use. -/

namespace Sys2Proof.Machine

/-- The unit that an operation evaluates (R2, R59). -/
def unitOf : Instr → BlockUnit
  | .decode => .dec
  | .encPlain _ => .enc
  | .encDiff _ => .enc
  | .segLut => .lut
  | .pwmMap => .pwm

/-- The ENC operation of a path and a unit (R59). -/
def encInstr : EncPath → TempUnit → Instr
  | .plain, u => .encPlain u
  | .difference, u => .encDiff u

/-- The segments that R56 lists for the glyph indices 0 to 12, and none for blank. -/
def listedSegments : Nat → List Segment
  | 0 => [.a, .b, .c, .d, .e, .f]
  | 1 => [.b, .c]
  | 2 => [.a, .b, .d, .e, .g]
  | 3 => [.a, .b, .c, .d, .g]
  | 4 => [.b, .c, .f, .g]
  | 5 => [.a, .c, .d, .f, .g]
  | 6 => [.a, .c, .d, .e, .f, .g]
  | 7 => [.a, .b, .c]
  | 8 => [.a, .b, .c, .d, .e, .f, .g]
  | 9 => [.a, .b, .c, .d, .f, .g]
  | 10 => [.a, .d, .e, .f]
  | 11 => [.a, .e, .f, .g]
  | 12 => [.g]
  | _ => []

/-- DEC's outputs agree with each other (R16, R64, R66, R67, R69): `dec_valid` goes with status OK and its absence with
DEC_NO_READING, `dec_neg` is the sign of both forms of the temperature, `dec_celsius` is exactly `dec_q4` / 16, and a
failed read shows zeros. -/
structure DecLegal (o : DecOut) : Prop where
  status_eq : o.status = if o.valid then 0 else 1
  neg_eq_top : o.neg = o.q4.getLsbD 12
  neg_eq_lt : o.neg = fltLt o.celsius 0
  finite : isFinite o.celsius = true
  exact : fltReal o.celsius = o.q4.toInt * 2 ^ 145
  zero_positive : o.q4 = 0 → o.celsius = 0
  no_reading : o.valid = false → o.q4 = 0 ∧ o.neg = false ∧ o.celsius = 0

/-- ENC's outputs agree with each other and with the table (R52, R58, R71, R75 to R80, R94, R100). -/
structure EncLegal (cfg : Config) (o : EncOut) : Prop where
  digit_le : ∀ i : Fin 5, o.d[i.val].toNat ≤ 9
  status_eq : o.status = if o.inv then 2 else if o.ovf then 3 else 0
  unit_seg : lut cfg 10 = some o.useg ∨ lut cfg 11 = some o.useg
  sign_seg : if o.neg then lut cfg 12 = some o.sseg else o.sseg = 0xFF
  point : o.dp = if o.inv then 0b00000 else 0b00010
  blank_tens : o.blank = true → o.d[0] = 0 ∧ o.dseg[0] = 0xFF
  tens_seg : o.inv = false → o.blank = false → lut cfg (o.d[0].setWidth 5) = some o.dseg[0]
  digit_seg : o.inv = false → ∀ i : Fin 5, i ≠ 0 → lut cfg (o.d[i.val].setWidth 5) = some o.dseg[i.val]
  invalid : o.inv = true →
    o.neg = false ∧ o.blank = false ∧ o.ovf = false ∧ ∀ i : Fin 5, o.d[i.val] = 0 ∧ o.dseg[i.val] = 0xFF

/-- A result of SEGLUT is the pattern of a defined entry, with status OK (R85): a refused one drives nothing. -/
structure LutLegal (cfg : Config) (o : LutOut) : Prop where
  status_ok : o.status = 0
  entry : ∃ g, lut cfg g = some o.seg

/-- Three duties of which exactly one is not 0, each with the duty of its channel (R87, R88). -/
def oneChannelOn (d : Vector Duty 3) : Prop :=
  d = #v[1023, 0, 0] ∨ d = #v[0, 1, 0] ∨ d = #v[0, 0, 1023]

/-- PWM's outputs agree with each other (R87, R88, R90): all channels are off exactly for an invalid input. -/
structure PwmLegal (o : PwmOut) : Prop where
  status_eq : o.status = if o.inv then 4 else 0
  invalid : o.inv = true → #v[o.ch0, o.ch1, o.ch2] = #v[0, 0, 0]
  valid : o.inv = false → oneChannelOn #v[o.ch0, o.ch1, o.ch2]

/-- The host's state agrees with itself: the show-difference sub-loop is a part of Calibrate (log 8, from example E5 of
95_test_vectors.md), and the channels are off or hold a pattern of PWMMAP (R28). -/
structure HostLegal (h : HostState) : Prop where
  difference_mode : h.inDifference = true → h.mode = .calibrate
  duties : h.duty = #v[0, 0, 0] ∨ oneChannelOn h.duty

/-- A legal state: every recorded result is legal and so is the host's state, and DEC has a result where the host has one
of this tick. -/
structure Legal (s : State) : Prop where
  dec : ∀ o, s.dec = some o → DecLegal o
  enc : ∀ o, s.enc = some o → EncLegal s.config o
  lut : ∀ o, s.lut = some o → LutLegal s.config o
  pwm : ∀ o, s.pwm = some o → PwmLegal o
  host : HostLegal s.host
  ready : s.host.readingReady = true → ∃ o, s.dec = some o

/-- What ENC shows of a value `v` whose scaled integer is `m` (R72 to R80): the digits of `m`, their patterns with the
tens position blanked or not, the unit and sign glyphs, the point, the flags and the status. -/
structure Shows (cfg : Config) (unit : TempUnit) (v : Flt) (m : Nat) (blank : Bool) (o : EncOut) : Prop where
  digit : ∀ i : Fin 5, o.d[i.val].toNat = m / 10 ^ (4 - i.val) % 10
  tens_seg : if blank then o.dseg[0] = 0xFF else lut cfg (o.d[0].setWidth 5) = some o.dseg[0]
  digit_seg : ∀ i : Fin 5, i ≠ 0 → lut cfg (o.d[i.val].setWidth 5) = some o.dseg[i.val]
  unit_seg : lut cfg (match unit with | .celsius => 10 | .fahrenheit => 11) = some o.useg
  sign_seg : if o.neg then lut cfg 12 = some o.sseg else o.sseg = 0xFF
  point : o.dp = 0b00010
  neg_eq : o.neg = fltLt v 0
  blank_eq : o.blank = blank
  ovf_eq : o.ovf = decide (m > 99999)
  inv_eq : o.inv = false
  status_eq : o.status = if m > 99999 then 3 else 0

/-- What ENC shows of a value that it cannot render (R71). -/
structure ShowsNothing (cfg : Config) (unit : TempUnit) (o : EncOut) : Prop where
  digits : ∀ i : Fin 5, o.d[i.val] = 0 ∧ o.dseg[i.val] = 0xFF
  unit_seg : lut cfg (match unit with | .celsius => 10 | .fahrenheit => 11) = some o.useg
  sign_seg : o.sseg = 0xFF
  point : o.dp = 0b00000
  flags : o.neg = false ∧ o.blank = false ∧ o.ovf = false ∧ o.inv = true
  status_eq : o.status = 2

/-- The five digits weighed by their places (R83). -/
def weightedSum (o : EncOut) : Nat :=
  10000 * o.d[0].toNat + 1000 * o.d[1].toNat + 100 * o.d[2].toNat + 10 * o.d[3].toNat + o.d[4].toNat

/-- Two states present an operation with the same operands (the last column of R59) and the same configuration. -/
def SameOperands (i : Instr) (s t : State) : Prop :=
  s.config = t.config ∧
    match i with
    | .decode => s.decB0 = t.decB0 ∧ s.decB1 = t.decB1 ∧ s.decOk = t.decOk
    | .encPlain _ => s.encV = t.encV
    | .encDiff _ => s.encV = t.encV
    | .segLut => s.lutG = t.lutG
    | .pwmMap => s.pwmD = t.pwmD

/-- Two states hold the same result of a unit. -/
def SameResult (u : BlockUnit) (s t : State) : Prop :=
  match u with
  | .dec => s.dec = t.dec
  | .enc => s.enc = t.enc
  | .lut => s.lut = t.lut
  | .pwm => s.pwm = t.pwm

/-- The state after `n` steps, if each goes on. -/
def stepN : Nat → State → Host.Outcome State Fault Refusal
  | 0, s => .next s
  | n + 1, s =>
    match step s with
    | .next t => stepN n t
    | .fault f => .fault f
    | .refused r => .refused r

/-- The reading of this tick that DEC's result holds for the host: DECODE was issued since the last temperature read, and
`dec_valid` = 1 (R46). -/
def HasReading (s : State) (c : Flt) : Prop :=
  ∃ o, s.dec = some o ∧ o.status ≠ 7 ∧ s.host.readingReady = true ∧ o.valid = true ∧ o.celsius = c

/-- DEC has a result, but it holds no reading of this tick: it is that of an earlier one, or of a failed read (R46). -/
def HasNoReading (s : State) : Prop :=
  ∃ o, s.dec = some o ∧ o.status ≠ 7 ∧ (s.host.readingReady = false ∨ o.valid = false)

/-- The temperature in sixteenths of a degree that two sensor bytes stand for, in whole numbers (R31, R64). -/
def readingOf (b0 b1 : Byte) : Int :=
  if b0.toNat * 256 + b1.toNat ≥ 32768 then (((b0.toNat * 256 + b1.toNat) / 8 : Nat) : Int) - 8192
  else (((b0.toNat * 256 + b1.toNat) / 8 : Nat) : Int)

/-- The reading in degrees that DECODE gives for two sensor bytes (R64). -/
def celsiusReading (b0 b1 : Byte) : Flt := fl (readingOf b0 b1 * 2 ^ 145)

/-- The value that a Live tick shows in a unit (R44). -/
def inUnit (u : TempUnit) (c : Flt) : Flt :=
  match u with
  | .celsius => c
  | .fahrenheit => Config.toFahrenheit c

/-- Every display position that P_LAYOUT gives to an output of ENC holds that output's pattern (R38). -/
def DisplayShows (h : HostState) (o : EncOut) : Prop :=
  ∀ p : Fin 9,
    (layout p = some .unit → h.display[p.val] = o.useg) ∧ (layout p = some .sign → h.display[p.val] = o.sseg) ∧
      ∀ i : Fin 5, layout p = some (.digit i) → h.display[p.val] = o.dseg[i.val]

end Sys2Proof.Machine
end

