-- ==== Sys2Proof/Certificates/Slice0/Obligations.lean ====
section
/-! DEFINITION. The statements for the provers. Real numbers are counted in units of 2^-149, the least binary32
subnormal: every real that the rules round is a whole number of them. -/

open Sys2Proof Sys2Proof.Machine

/-! ### Selector and program encodings -/

/-- Each selector of the table of R59 names its operation, by mask and match, and bit 1 is the unit field. -/
def Obligations.SelectorTableDecodes : Prop :=
  ∀ sel : Sel,
    (decode sel = .ok .decode ↔ sel &&& 0xF = 0x0) ∧
    (∀ u, decode sel = .ok (.encPlain u) ↔ sel &&& 0xD = 0x4 ∧ (u = .fahrenheit ↔ sel.getLsbD 1 = true)) ∧
    (∀ u, decode sel = .ok (.encDiff u) ↔ sel &&& 0xD = 0x5 ∧ (u = .fahrenheit ↔ sel.getLsbD 1 = true)) ∧
    (decode sel = .ok .segLut ↔ sel &&& 0xF = 0x8) ∧
    (decode sel = .ok .pwmMap ↔ sel &&& 0xF = 0xC)

/-- The nine reserved selector values are refused by name, and no other value is (the first item of R60). -/
def Obligations.ReservedSelectorsRefused : Prop :=
  ∀ sel : Sel,
    decode sel = .error (.selReserved sel) ↔
      sel ∈ [0b0001, 0b0010, 0b0011, 0b1001, 0b1010, 0b1011, 0b1101, 0b1110, 0b1111]

/-- Decoding the selector of an operation gives the operation, and only its own selector decodes to it. -/
def Obligations.EncodeInvertsDecode : Prop :=
  ∀ (sel : Sel) (i : Instr), decode sel = .ok i ↔ sel = encode i

/-- Words written out from the encodings of R59 and 95_test_vectors.md decode to the operations they stand for. -/
def Obligations.WrittenWordsDecode : Prop :=
  decodeTableWord 8 0b0000 = some .decode ∧ decodeTableWord 8 0b0110 = some (.encPlain .fahrenheit) ∧
    decodeTableWord 8 0b0101 = some (.encDiff .celsius) ∧ decodeTableWord 8 0b1000 = some .segLut ∧
    decodeTableWord 8 0b1100 = some .pwmMap ∧
    decodeProgram [0b0000, 0x0B, 0x80, 1, 0b0101, 0xBF000000, 0b1100, 0xBF000000] =
      .ok [.decode 0x0B 0x80 true, .encDiff .celsius 0xBF000000, .pwmMap 0xBF000000]

/-- A program of operations, each written as its selector and its operand port values in the order of R59, decodes to
itself, whatever the operands. That the words follow each other in one sequence is the model's form (log 13). -/
def Obligations.ProgramEncodingRoundTrip : Prop :=
  ∀ os : List Operation, decodeProgram (encodeProgram os) = .ok os

/-- A word sequence that decodes to a program is the encoding of that program: no two sequences mean the same (the
sequence is the model's form, log 13). -/
def Obligations.ProgramDecodingUnambiguous : Prop :=
  ∀ (ws : List Nat) (os : List Operation), decodeProgram ws = .ok os → encodeProgram os = ws

/-! ### Floating point -/

/-- `fl` rounds to the nearest binary32 value, a tie to the one with an even significand, and to an infinity of
the same sign from the midpoint above the greatest finite value on: roundTiesToEven, as R10 has it from IEEE 754 (G1 of
93_implementation_defined.md). -/
def Obligations.RoundsToNearestEven : Prop :=
  ∀ n : Int,
    ((2 ^ 25 - 1) * 2 ^ 252 ≤ n.natAbs → isInf (fl n) = true ∧ fltSign (fl n) = decide (n < 0)) ∧
    (n.natAbs < (2 ^ 25 - 1) * 2 ^ 252 →
      isFinite (fl n) = true ∧
        ∀ v : Flt, isFinite v = true →
          |n - fltReal (fl n)| ≤ |n - fltReal v| ∧
            (|n - fltReal (fl n)| = |n - fltReal v| →
              fltReal v = fltReal (fl n) ∨ (fl n).getLsbD 0 = false))

/-- The comparisons are those of the exact values for finite values, put −infinity below and +infinity above all of
them, and are false with a NaN: IEEE 754, as R10 has it (G1 of 93_implementation_defined.md). -/
def Obligations.ComparisonsAreIeee : Prop :=
  ∀ a b : Flt,
    (isFinite a = true → isFinite b = true →
      (fltLt a b = true ↔ fltReal a < fltReal b) ∧ (fltEq a b = true ↔ fltReal a = fltReal b)) ∧
    (isNaN a = true ∨ isNaN b = true → fltLt a b = false ∧ fltEq a b = false) ∧
    (isInf a = true → isFinite b = true →
      fltLt a b = fltSign a ∧ fltLt b a = !fltSign a ∧ fltEq a b = false) ∧
    (isInf a = true → isInf b = true →
      fltLt a b = (fltSign a && !fltSign b) ∧ fltEq a b = (fltSign a == fltSign b))

/-! ### DECODE -/

/-- R64: DECODE's encoding, its outputs for a completed read, and its outputs for a failed one. -/
def Obligations.DecodeReadsSensorWord : Prop :=
  (∀ sel, decode sel = .ok .decode ↔ sel = 0b0000) ∧
  ∀ s : State,
    (s.decOk = true →
      exec .decode s = .next { s with
        dec := some
          { valid := true
            q4 := BitVec.ofInt 13 (readingOf s.decB0 s.decB1)
            neg := decide (s.decB0.toNat ≥ 128)
            celsius := fl (readingOf s.decB0 s.decB1 * 2 ^ 145)
            status := 0 } }) ∧
    (s.decOk = false →
      exec .decode s = .next { s with
        dec := some { valid := false, q4 := 0, neg := false, celsius := 0x00000000, status := 1 } })

/-- The range, the exactness and the sign of a reading: q is from −4096 to 4095, `dec_celsius` is exactly q / 16 and
+0.0 for q = 0, and `dec_neg`, the sign bit of `dec_q4` and `dec_celsius` < 0 agree. It rests on the spec's own
derivations in 40_decoder.md (the sentences of R66 and R67 marked as derived). -/
def Obligations.ReadingIsExactAndSigned : Prop :=
  ∀ s : State, s.decOk = true → ∃ o,
    exec .decode s = .next { s with dec := some o } ∧
      -4096 ≤ readingOf s.decB0 s.decB1 ∧ readingOf s.decB0 s.decB1 ≤ 4095 ∧
      o.q4.toInt = readingOf s.decB0 s.decB1 ∧
      isFinite o.celsius = true ∧ fltReal o.celsius = readingOf s.decB0 s.decB1 * 2 ^ 145 ∧
      (readingOf s.decB0 s.decB1 = 0 → o.celsius = 0x00000000) ∧
      o.neg = decide (readingOf s.decB0 s.decB1 < 0) ∧ o.neg = fltLt o.celsius 0x00000000

/-- The two other forms of q: the 13-bit field read as two's complement, and the signed word divided by 8 and rounded
down. It rests on the derivation that 40_decoder.md gives in R65. -/
def Obligations.ReadingHasTwoOtherForms : Prop :=
  ∀ w : BitVec 16,
    sixteenths w = (w.extractLsb 15 3).toInt ∧ sixteenths w = w.toInt / 8 ∧ sixteenths w = (w.sshiftRight 3).toInt

/-- Bits 2:0 of the sensor word change nothing (the spec's derivation in R68; U6). -/
def Obligations.LowBitsIgnored : Prop :=
  ∀ (s t : State) (x : Byte), s.decOk = true → x.toNat < 8 →
    t = { s with decB1 := (s.decB1 &&& 0xF8) ||| x } →
    ∃ o, exec .decode s = .next { s with dec := some o } ∧ exec .decode t = .next { t with dec := some o }

/-! ### ENC -/

/-- R81: ENC.PLAIN's encoding, what it shows of a value it can render, with the scaled integer truncated, and that it
shows nothing of another. -/
def Obligations.EncPlainTruncates : Prop :=
  (∀ sel, decode sel = .ok (.encPlain .celsius) ↔ sel = 0b0100) ∧
  (∀ sel, decode sel = .ok (.encPlain .fahrenheit) ↔ sel = 0b0110) ∧
  ∀ (u : TempUnit) (s : State) (p : Flt), p = fl ((fltUnits (fltAbs s.encV) * 1000 : Nat) : Int) →
    (isFinite s.encV = true ∧ isFinite p = true → ∃ o,
      exec (.encPlain u) s = .next { s with encUnit := u, encPath := .plain, enc := some o } ∧
        Shows s.config u s.encV (fltUnits p / 2 ^ 149) false o) ∧
    (¬(isFinite s.encV = true ∧ isFinite p = true) → ∃ o,
      exec (.encPlain u) s = .next { s with encUnit := u, encPath := .plain, enc := some o } ∧
        ShowsNothing s.config u o)

/-- R82: ENC.DIFF's encoding, what it shows of a value it can render, with 0.5 added in P_FLT to the scaled magnitude
and a zero tens digit blanked, and that it shows nothing of another. -/
def Obligations.EncDiffRoundsAndBlanks : Prop :=
  (∀ sel, decode sel = .ok (.encDiff .celsius) ↔ sel = 0b0101) ∧
  (∀ sel, decode sel = .ok (.encDiff .fahrenheit) ↔ sel = 0b0111) ∧
  ∀ (u : TempUnit) (s : State) (p : Flt), p = fl ((fltUnits (fltAbs s.encV) * 1000 : Nat) : Int) →
    (isFinite s.encV = true ∧ isFinite p = true → ∃ o m,
      m = fltUnits (fl ((fltUnits p + 2 ^ 148 : Nat) : Int)) / 2 ^ 149 ∧
      exec (.encDiff u) s = .next { s with encUnit := u, encPath := .difference, enc := some o } ∧
        Shows s.config u s.encV m (decide (m / 10000 % 10 = 0)) o) ∧
    (¬(isFinite s.encV = true ∧ isFinite p = true) → ∃ o,
      exec (.encDiff u) s = .next { s with encUnit := u, encPath := .difference, enc := some o } ∧
        ShowsNothing s.config u o)

/-- The digits of a valid input weigh m mod 100000, on both paths, so they weigh m when `enc_ovf` = 0 (the spec's
derivation in R83). -/
def Obligations.DigitsWeighScaledInteger : Prop :=
  ∀ (u : TempUnit) (s : State) (path : EncPath), encodable s.encV = true → ∃ o,
    exec (encInstr path u) s =
        .next { s with encUnit := u, encPath := path, enc := some o } ∧
      weightedSum o = scaledInteger path s.encV % 100000 ∧
      (o.ovf = false → weightedSum o = scaledInteger path s.encV)

/-- For every p with 0 ≤ p < 2^23, trunc(fl(p + 0.5)) is p + 0.5 rounded down, but for p = 0.5 − 2^-25, where it is 1 and
not 0 (the spec's derivation in the corner cases of R82; C10). -/
def Obligations.BiasRoundsDownExceptOnce : Prop :=
  ∀ p : Flt, fltSign p = false → isFinite p = true → fltUnits p < 2 ^ 23 * 2 ^ 149 →
    (p ≠ 0x3EFFFFFF → fltTrunc (biased p) = (fltUnits p + 2 ^ 148) / 2 ^ 149) ∧
    (p = 0x3EFFFFFF → fltTrunc (biased p) = 1 ∧ (fltUnits p + 2 ^ 148) / 2 ^ 149 = 0)

/-- Every value that DECODE can produce can be rendered; its plain scaled integer is 62.5 × |q| rounded down and its
difference scaled integer 62.5 × |q| rounded half up (the spec's derivations in R71 and in the corner cases of R81, and R82 for
the rounding). -/
def Obligations.ReadingsScaleExactly : Prop :=
  ∀ q : Int, -4096 ≤ q → q ≤ 4095 →
    encodable (fl (q * 2 ^ 145)) = true ∧
      scaledInteger .plain (fl (q * 2 ^ 145)) = 125 * q.natAbs / 2 ∧
      scaledInteger .difference (fl (q * 2 ^ 145)) = (125 * q.natAbs + 1) / 2

/-- The unit selects the glyph only: the two forms of an ENC operation differ in nothing but `enc_useg` (R78). -/
def Obligations.UnitSelectsGlyphOnly : Prop :=
  ∀ (s : State) (path : EncPath), ∃ (o : EncOut) (c f : SegPattern),
    lut s.config 10 = some c ∧ lut s.config 11 = some f ∧
      exec (encInstr path .celsius) s =
        .next { s with encUnit := .celsius, encPath := path, enc := some { o with useg := c } } ∧
      exec (encInstr path .fahrenheit) s =
        .next { s with encUnit := .fahrenheit, encPath := path, enc := some { o with useg := f } }

/-- The sign position shows the minus glyph when `enc_neg` = 1 and is blank otherwise, on both paths and for every
input (R79); `enc_neg` is v < 0 for a value that ENC can render (R72), and 0 for another (R71). -/
def Obligations.SignShownOnBothPaths : Prop :=
  ∀ (s : State) (u : TempUnit) (path : EncPath), ∃ o,
    exec (encInstr path u) s = .next { s with encUnit := u, encPath := path, enc := some o } ∧
      (o.neg = true → lut s.config 12 = some o.sseg) ∧ (o.neg = false → o.sseg = 0xFF) ∧
      (encodable s.encV = true → o.neg = fltLt s.encV 0x00000000) ∧ (encodable s.encV = false → o.neg = false)

/-! ### SEGLUT and the table -/

/-- SEGLUT's encoding, its result for every index that an entry is defined for, and its refusal for every other (R85, R99),
with LUT_RESERVED, code 5 (that the refusal carries the code is log 11). -/
def Obligations.SegLutLooksUpOrRefuses : Prop :=
  (∀ sel, decode sel = .ok .segLut ↔ sel = 0b1000) ∧
  ∀ s : State,
    (∀ h : s.lutG.toNat < 13,
      exec .segLut s = .next { s with lut := some { seg := s.config.segLut[s.lutG.toNat], status := 0 } }) ∧
    (s.lutG = 13 → exec .segLut s = .next { s with lut := some { seg := 0xFF, status := 0 } }) ∧
    (∀ (k : Fin 18) (seg : SegPattern), s.lutG.toNat = 14 + k.val → s.config.modeLetters[k.val] = some seg →
      exec .segLut s = .next { s with lut := some { seg := seg, status := 0 } }) ∧
    (∀ k : Fin 18, s.lutG.toNat = 14 + k.val → s.config.modeLetters[k.val] = none →
      exec .segLut s = .refused (.lutReserved s.lutG) ∧
        refusalStatus (.lutReserved s.lutG) = some .lutReserved ∧ statusCode .lutReserved = 5)

/-- R86: every glyph that ENC draws, on both paths (the unit, the minus sign, each digit that is not blanked), has the
pattern that SEGLUT gives for it. -/
def Obligations.EncAndSegLutAgree : Prop :=
  ∀ (s : State) (u : TempUnit) (path : EncPath), ∃ o,
    exec (encInstr path u) s = .next { s with encUnit := u, encPath := path, enc := some o } ∧
      (∀ g : GlyphIndex, g = (match u with | .celsius => 10 | .fahrenheit => 11) →
        exec .segLut { s with lutG := g } = .next { s with lutG := g, lut := some { seg := o.useg, status := 0 } }) ∧
      (o.neg = true →
        exec .segLut { s with lutG := 12 } =
          .next { s with lutG := 12, lut := some { seg := o.sseg, status := 0 } }) ∧
      ∀ i : Fin 5, o.inv = false → (i = 0 → o.blank = false) →
        exec .segLut { s with lutG := o.d[i.val].setWidth 5 } =
          .next { s with lutG := o.d[i.val].setWidth 5, lut := some { seg := o.dseg[i.val], status := 0 } }

/-- Under every bit assignment the blank pattern lights no segment, and the pattern 0x00 lights all (the spec's derivation
in R54, from active-low in R53). -/
def Obligations.BlankLightsNothing : Prop :=
  ∀ (cfg : Config) (seg : Segment), lights cfg 0xFF seg = false ∧ lights cfg 0x00 seg = true

/-- The default table lights, for each glyph, exactly the segments that R56 lists; the table and the bit assignment are the
spec's general knowledge (log 3). -/
def Obligations.DefaultTableLightsListedSegments : Prop :=
  ∀ (g : Fin 14) (seg : Segment), ∃ pattern, lut defaultConfig (BitVec.ofNat 5 g.val) = some pattern ∧
    (lights defaultConfig pattern seg = true ↔ seg ∈ listedSegments g.val)

/-! ### PWMMAP -/

/-- R87: PWMMAP's encoding and its four cases, one of which every input falls under. -/
def Obligations.PwmMapsSign : Prop :=
  (∀ sel, decode sel = .ok .pwmMap ↔ sel = 0b1100) ∧
  ∀ s : State,
    (isNaN s.pwmD = true ∨ fltLt s.pwmD 0x00000000 = true ∨ fltEq s.pwmD 0x00000000 = true ∨
      fltLt 0x00000000 s.pwmD = true) ∧
    (isNaN s.pwmD = true →
      exec .pwmMap s = .next { s with pwm := some { ch0 := 0, ch1 := 0, ch2 := 0, inv := true, status := 4 } }) ∧
    (fltLt s.pwmD 0x00000000 = true →
      exec .pwmMap s = .next { s with pwm := some { ch0 := 1023, ch1 := 0, ch2 := 0, inv := false, status := 0 } }) ∧
    (fltEq s.pwmD 0x00000000 = true →
      exec .pwmMap s = .next { s with pwm := some { ch0 := 0, ch1 := 1, ch2 := 0, inv := false, status := 0 } }) ∧
    (fltLt 0x00000000 s.pwmD = true →
      exec .pwmMap s = .next { s with pwm := some { ch0 := 0, ch1 := 0, ch2 := 1023, inv := false, status := 0 } })

/-- R89: no dead band and no tolerance at zero: what each half of the bit patterns gives. −0.0 is zero, the least
subnormals and the infinities are not. -/
def Obligations.PwmHasNoDeadBand : Prop :=
  ∀ s : State,
    (s.pwmD = 0x00000000 ∨ s.pwmD = 0x80000000 →
      exec .pwmMap s = .next { s with pwm := some { ch0 := 0, ch1 := 1, ch2 := 0, inv := false, status := 0 } }) ∧
    (0x00000001 ≤ s.pwmD.toNat → s.pwmD.toNat ≤ 0x7F800000 →
      exec .pwmMap s = .next { s with pwm := some { ch0 := 0, ch1 := 0, ch2 := 1023, inv := false, status := 0 } }) ∧
    (0x80000001 ≤ s.pwmD.toNat → s.pwmD.toNat ≤ 0xFF800000 →
      exec .pwmMap s = .next { s with pwm := some { ch0 := 1023, ch1 := 0, ch2 := 0, inv := false, status := 0 } })

/-- Exactly one channel is not zero for every input that is not a NaN, channel 1 alone exactly at zero (the spec's
derivation in R88); PWMMAP completes on every input. -/
def Obligations.OneChannelForEveryNumber : Prop :=
  ∀ s : State, ∃ o, exec .pwmMap s = .next { s with pwm := some o } ∧
    (isNaN s.pwmD = false →
      (([o.ch0, o.ch1, o.ch2].filter fun d => d != 0).length = 1) ∧
        (o.ch1 ≠ 0 ↔ fltEq s.pwmD 0x00000000 = true) ∧ (o.ch0 ≠ 0 ↔ fltLt s.pwmD 0x00000000 = true)) ∧
    (o.inv = isNaN s.pwmD)

/-! ### The block as a whole -/

/-- R14: a unit's outputs depend on the operation's own inputs and the constant configuration alone, whatever the unit
and every other held before. -/
def Obligations.OutputsDependOnInputsAlone : Prop :=
  ∀ (i : Instr) (s t : State), SameOperands i s t →
    (∀ s', exec i s = .next s' → ∃ t', exec i t = .next t' ∧ SameResult (unitOf i) s' t') ∧
      ∀ r, exec i s = .refused r → exec i t = .refused r

/-- No operation faults, none changes what the host issues next (R93), and the one refusal of an operation is SEGLUT's
(R99). -/
def Obligations.NoOperationTraps : Prop :=
  ∀ (i : Instr) (s : State),
    (∀ f, exec i s ≠ .fault f) ∧ (∀ s', exec i s = .next s' → s'.program = s.program) ∧
      ∀ r, exec i s = .refused r →
        i = .segLut ∧ r = .lutReserved s.lutG ∧ 14 ≤ s.lutG.toNat ∧ lut s.config s.lutG = none

/-- Operations of different units commute: the order of operations changes no result (R40). -/
def Obligations.OperationsOfUnitsCommute : Prop :=
  ∀ (i j : Instr) (s s₁ s₂ : State), unitOf i ≠ unitOf j → exec i s = .next s₁ → exec j s₁ = .next s₂ →
    ∃ t₁, exec j s = .next t₁ ∧ exec i t₁ = .next s₂

/-- The last operation of a unit wins, as if the one before it had not been: an operation repeated changes nothing more
(R36), and no status code is sticky (R103). -/
def Obligations.LastOperationOfUnitWins : Prop :=
  ∀ (i j : Instr) (s s₁ : State), unitOf i = unitOf j → exec i s = .next s₁ → exec j s₁ = exec j s

/-- An operation changes the result of its own unit and, for ENC, the two selector fields; every other port, result,
parameter and all of the host's state are unchanged. -/
def Obligations.OperationFrame : Prop :=
  ∀ (i : Instr) (s s' : State), exec i s = .next s' →
    (s'.config = s.config ∧ s'.host = s.host ∧ s'.program = s.program ∧ s'.draws = s.draws ∧ s'.sel = s.sel ∧
      s'.decB0 = s.decB0 ∧ s'.decB1 = s.decB1 ∧ s'.decOk = s.decOk ∧ s'.encV = s.encV ∧ s'.lutG = s.lutG ∧
      s'.pwmD = s.pwmD) ∧
    (unitOf i ≠ .dec → s'.dec = s.dec) ∧
    (unitOf i ≠ .enc → s'.enc = s.enc ∧ s'.encUnit = s.encUnit ∧ s'.encPath = s.encPath) ∧
    (unitOf i ≠ .lut → s'.lut = s.lut) ∧
    (unitOf i ≠ .pwm → s'.pwm = s.pwm)

/-! ### Steps, runs and reset -/

/-- A step whose next host step issues the selector of an operation runs exactly that operation, on the ports as they
are presented, with the step taken off the program; the host notes that DECODE has been issued on the last bytes (the list
of host steps is the model's choice, log 2, and the note is log 12). -/
def Obligations.StepRunsDecodedOperation : Prop :=
  ∀ (s : State) (sel : Sel) (rest : List HostStep) (i : Instr),
    s.program = .operation sel :: rest → decode sel = .ok i →
      step s = exec i { s with
        program := rest
        sel := sel
        host := { s.host with readingReady := s.host.readingReady || decide (i = .decode) } }

/-- An operation whose selector is reserved is refused with SEL_RESERVED, code 6, whatever the ports present (R99; log
11). -/
def Obligations.ReservedSelectorStopsRun : Prop :=
  ∀ (s : State) (sel : Sel) (rest : List HostStep),
    s.program = .operation sel :: rest →
      sel ∈ [0b0001, 0b0010, 0b0011, 0b1001, 0b1010, 0b1011, 0b1101, 0b1110, 0b1111] →
      step s = .refused (.selReserved sel) ∧ refusalStatus (.selReserved sel) = some .selReserved ∧
        statusCode .selReserved = 6

/-- The table, like every other parameter, is read and never written, by operations and by the host alike (R113, R15). -/
def Obligations.ConfigurationNeverWritten : Prop :=
  ∀ s s' : State, step s = .next s' → s'.config = s.config

/-- Steps are taken in the order in which the program lists them (R40): a step removes the first one, and more only where
it skips; a tick or a set-baseline action puts its own sequence first. With no step listed, the block does nothing (R108;
the model's choice, log 2). -/
def Obligations.ProgramOrder : Prop :=
  ∀ s s' : State, step s = .next s' →
    (s.program = [] → s' = s) ∧
      ∀ h rest, s.program = h :: rest →
        match h with
        | .skipUnlessReading n => s'.program = rest ∨ s'.program = rest.drop n
        | .tick reply aux => s'.program = tickSteps s.host reply aux ++ rest
        | .baselineAction replies => s'.program = baselineActionSteps s.host replies ++ rest
        | _ => s'.program = rest

/-- Every step keeps a state legal: the results that the units have driven agree with themselves, with the table and
with the status codes, digits stay decimal, exactly one channel is on for a valid difference, the host's duties hold a
pattern of PWMMAP or are off, and the show-difference sub-loop is within Calibrate (that clause is log 8, from example E5 of
95_test_vectors.md). -/
def Obligations.StepKeepsLegal : Prop :=
  ∀ s s' : State, Legal s → step s = .next s' → Legal s'

/-- The state after reset is legal. -/
def Obligations.ResetLegal : Prop := Legal State.reset

/-- What reset leaves where the spec gives a value (R29): no results, Idle, Baseline and duties 0, and the table at its
default (log 3). -/
def Obligations.ResetValues : Prop :=
  State.reset.dec = none ∧ State.reset.enc = none ∧ State.reset.lut = none ∧ State.reset.pwm = none ∧
    State.reset.host.mode = .idle ∧ State.reset.host.baseline = 0x00000000 ∧
    State.reset.host.duty = #v[0, 0, 0] ∧
    State.reset.config.segLut =
      #v[0xC0, 0xF9, 0xA4, 0xB0, 0x99, 0x92, 0x82, 0xF8, 0x80, 0x90, 0xC6, 0x8E, 0xBF]

/-! ### The host around the block -/

/-- After reset no unit's output has a value, and a host step that reads a result of a unit that has not run faults
(R114; the host's steps are the model's choice, log 12). -/
def Obligations.UndrivenResultFaults : Prop :=
  (State.reset.dec = none ∧ State.reset.enc = none ∧ State.reset.lut = none ∧ State.reset.pwm = none) ∧
  ∀ (s : State) (rest : List HostStep),
    (s.dec = none →
      (∀ n, s.program = .skipUnlessReading n :: rest → step s = .fault (.undrivenOutput .dec)) ∧
      (s.program = .passCelsius :: rest → step s = .fault (.undrivenOutput .dec)) ∧
      (s.program = .passFahrenheit :: rest → step s = .fault (.undrivenOutput .dec)) ∧
      (s.program = .takeSample :: rest → step s = .fault (.undrivenOutput .dec)) ∧
      (s.program = .passDifference :: rest → s.host.inDifference = true →
        step s = .fault (.undrivenOutput .dec))) ∧
    (s.enc = none → s.program = .writeDisplay :: rest → step s = .fault (.undrivenOutput .enc)) ∧
    (s.lut = none → ∀ p, s.program = .writeGlyph p :: rest → step s = .fault (.undrivenOutput .lut)) ∧
    (s.pwm = none → s.program = .writeDuties :: rest → step s = .fault (.undrivenOutput .pwm))

/-- A failed 2-byte read presents `dec_ok` = 0, the DECODE after it completes with no reading, and a host step that would
pass that on as a temperature surfaces the read error instead and changes nothing else (R46, R69; the form of the read error
is log 12). -/
def Obligations.FailedReadGivesNoReading : Prop :=
  ∀ (s : State) (rest : List HostStep),
    s.program = .memRead 0x00 2 none :: .operation 0b0000 :: .passCelsius :: rest →
      ∃ s₁ s₂, step s = .next s₁ ∧ s₁.decOk = false ∧ step s₁ = .next s₂ ∧
        s₂.dec = some { valid := false, q4 := 0, neg := false, celsius := 0x00000000, status := 1 } ∧
        step s₂ = .next { s₂ with program := rest, host := { s₂.host with readError := true } }

/-- A completed 2-byte read of register 0x00, at the sensor's address, presents both bytes, the first one read as the most
significant (R31, R33, R37); nothing that the host had read before counts as a reading of this tick (log 12, log 14). -/
def Obligations.CompletedReadPresentsBytes : Prop :=
  ∀ (s : State) (b0 b1 : Byte) (rest : List HostStep),
    s.program = .memRead 0x00 2 (some [b0, b1]) :: rest →
      step s = .next { s with
        program := rest
        decB0 := b0
        decB1 := b1
        decOk := true
        host := { s.host with
          lastRead := some { device := Config.sensorAddr, reg := 0x00, count := 2 }
          readingReady := false
          readError := false } } ∧
        (sensorWord b0 b1).toNat = b0.toNat * 256 + b1.toNat

/-- A read of another register or length than the two defined ones is refused (the last sentence of R34). -/
def Obligations.OtherSensorReadsRefused : Prop :=
  ∀ (s : State) (reg : Byte) (n : Nat) (reply : Option (List Byte)) (rest : List HostStep),
    s.program = .memRead reg n reply :: rest → ¬(reg = 0x00 ∧ n = 2) → ¬(reg = 0x0B ∧ n = 1) →
      step s = .refused (.sensorRead reg n)

/-- The identity read changes no input of DEC and nothing else of the block, whatever byte it returns; the host logs
whether the byte differs from P_ID_EXPECTED (R37, R70; log 14, log 15). -/
def Obligations.IdentityReadChangesNothing : Prop :=
  ∀ (s : State) (b : Byte) (rest : List HostStep),
    s.program = .memRead 0x0B 1 (some [b]) :: rest →
      step s = .next { s with
        program := rest
        host := { s.host with
          lastRead := some { device := Config.sensorAddr, reg := 0x0B, count := 1 }
          idMismatch := decide (b ≠ Config.idExpected) } }

/-- Idle entry: Mode is Idle, Baseline and all three duties are 0, the display is cleared, and no result, input or
parameter changes (R26, R27, R28, R115). The pattern and the mask that the display then shows are free values (U13, log 6),
and the code is that of E5 (log 8); that the readings of an average in progress are kept is the model's choice (log 16). -/
def Obligations.IdleEntryClearsHost : Prop :=
  ∀ (s : State) (rest : List HostStep),
    s.program = .button 1 :: rest → s.host.inDifference = false → s.host.mode ≠ .idle →
      step s = .next { s with
        program := rest
        host := { s.host with
          mode := .idle
          baseline := 0x00000000
          duty := #v[0, 0, 0]
          display := Vector.ofFn (Config.clearedPattern s.draws)
          dpMask := Config.clearedMask s.draws }
        draws := s.draws + 1 }

/-- Live left by the Calibrate code: the display is cleared too (R27), and nothing else changes but Mode. The pattern and
the mask are free values (U13, log 6), and the code is that of E5 (log 8); that the readings of an average in progress are
kept is the model's choice (log 16). -/
def Obligations.LeavingLiveClearsDisplay : Prop :=
  ∀ (s : State) (rest : List HostStep),
    s.program = .button 4 :: rest → s.host.inDifference = false → s.host.mode = .live →
      step s = .next { s with
        program := rest
        host := { s.host with
          mode := .calibrate
          display := Vector.ofFn (Config.clearedPattern s.draws)
          dpMask := Config.clearedMask s.draws }
        draws := s.draws + 1 }

/-- The show-difference sub-loop is entered by code 8 in Calibrate, and in no other mode (E5; log 8). That the readings of an
average in progress are kept is the model's choice (log 16). -/
def Obligations.DifferenceEnteredOnlyInCalibrate : Prop :=
  ∀ (s : State) (rest : List HostStep),
    s.program = .button 8 :: rest → s.host.inDifference = false →
      (s.host.mode = .calibrate →
        step s = .next { s with program := rest, host := { s.host with inDifference := true } }) ∧
      (s.host.mode ≠ .calibrate → step s = .next { s with program := rest })

/-- Leaving the show-difference sub-loop forces all three channels to 0; Mode is then Live or Calibrate (R45, C8, U19;
log 8), and the display with its mask, Baseline and everything else are as before. That the readings of an average in
progress are kept is the model's choice (log 16). -/
def Obligations.LeavingDifferenceForcesChannelsOff : Prop :=
  ∀ (s : State) (rest : List HostStep) (code : Nat),
    s.program = .button code :: rest → code = 1 ∨ code = 16 → s.host.inDifference = true →
      ∃ m, m ≠ .idle ∧
        step s = .next { s with
          program := rest
          host := { s.host with mode := m, inDifference := false, duty := #v[0, 0, 0] }
          draws := s.draws + 1 }

/-- A button code other than the five of E5 changes nothing (R111; that these five are the recognised ones is log 8). -/
def Obligations.UnrecognisedButtonIsNoOp : Prop :=
  ∀ (s : State) (rest : List HostStep) (code : Nat),
    s.program = .button code :: rest → code ∉ [1, 2, 4, 8, 16] → step s = .next { s with program := rest }

/-- The host writes channel k's duty to channel k of the device (R39), and nothing else changes. That it does so for every
status that PWM drives is log 18. -/
def Obligations.DutyWriteReachesItsChannel : Prop :=
  ∀ (s : State) (rest : List HostStep) (o : PwmOut),
    s.program = .writeDuties :: rest → s.pwm = some o → o.status ≠ 7 →
      step s = .next { s with program := rest, host := { s.host with duty := #v[o.ch0, o.ch1, o.ch2] } }

/-- The host writes SEGLUT's pattern to the display position that it names (R18, R38; log 7), and nothing else changes. -/
def Obligations.GlyphWriteReachesItsPosition : Prop :=
  ∀ (s : State) (rest : List HostStep) (p : Fin 9) (o : LutOut),
    s.program = .writeGlyph p :: rest → s.lut = some o → o.status ≠ 7 →
      ∃ d : Vector SegPattern 9,
        step s = .next { s with program := rest, host := { s.host with display := d } } ∧
          d[p.val] = o.seg ∧ ∀ q : Fin 9, q ≠ p → d[q.val] = s.host.display[q.val]

/-- The host writes ENC's patterns to the positions that P_LAYOUT gives them, leaves every other position as it was, and
maps `enc_dp` onto the mask bits of the positions that show a marked digit (R38, R58). Every output of ENC has a position,
and every position a mask bit of its own (R27); the rest of the layout is open (D23, log 7). That the host writes for every
status that ENC drives is log 18. -/
def Obligations.DisplayWriteFollowsLayout : Prop :=
  (∀ g, ∃ p, layout p = some g) ∧ (∀ p q, maskBit p = maskBit q → p = q) ∧
  ∀ (s : State) (rest : List HostStep) (o : EncOut),
    s.program = .writeDisplay :: rest → s.enc = some o → o.status ≠ 7 →
      ∃ (d : Vector SegPattern 9) (mask : BitVec 9),
        step s = .next { s with program := rest, host := { s.host with display := d, dpMask := mask } } ∧
        (∀ p : Fin 9, d[p.val] =
          match layout p with
          | none => s.host.display[p.val]
          | some .unit => o.useg
          | some .sign => o.sseg
          | some (.digit i) => o.dseg[i.val]) ∧
        ∀ p : Fin 9, mask.getLsbD (maskBit p).val = true ↔
          ∃ i, layout p = some (.digit i) ∧ o.dp.getLsbD i.val = true

/-- The set-baseline step takes the host's mean of exactly 30 readings as Baseline, in Calibrate outside the sub-loop, and
empties the readings (R26); everywhere else it is refused, which is the model's choice (log 9), as the mean itself is a free
value (U22, log 9). That readings taken before a change of Mode count, and that the step empties them, is log 16. -/
def Obligations.BaselineIsMeanOfThirtyReadings : Prop :=
  ∀ (s : State) (rest : List HostStep), s.program = .setBaseline :: rest →
    (s.host.mode = .calibrate → s.host.inDifference = false → s.host.samples.length = 30 →
      step s = .next { s with
        program := rest
        host := { s.host with baseline := Config.hostMean s.draws s.host.samples, samples := [] }
        draws := s.draws + 1 }) ∧
    (s.host.mode ≠ .calibrate ∨ s.host.inDifference = true ∨ s.host.samples.length ≠ 30 →
      step s = .refused .noCalibration)

/-- Baseline is set only by an explicit calibration action, or by entering Idle, where it becomes 0 (R26; the forms of the
two steps are log 8 and log 9). -/
def Obligations.BaselineSetOnlyByCalibrationOrIdle : Prop :=
  ∀ s s' : State, step s = .next s' → s'.host.baseline ≠ s.host.baseline →
    s.host.inDifference = false ∧
      ((∃ rest, s.program = .setBaseline :: rest ∧ s.host.mode = .calibrate ∧ s.host.samples.length = 30 ∧
          s'.host.baseline = Config.hostMean s.draws s.host.samples) ∨
        ∃ rest, s.program = .button 1 :: rest ∧ s.host.mode ≠ .idle ∧ s'.host.mode = .idle ∧
          s'.host.baseline = 0x00000000)

/-- Idle is left exactly on the Live and the Calibrate button code (R115, last sentence but one), and nothing else changes,
the display and its mask included; the codes are those of E5 (log 8), and that the readings of an average in progress are
kept is the model's choice (log 16). -/
def Obligations.IdleLeftOnLiveOrCalibrate : Prop :=
  ∀ (s : State) (rest : List HostStep) (code : Nat),
    s.program = .button code :: rest → s.host.mode = .idle → s.host.inDifference = false →
      step s = .next { s with
        program := rest
        host := { s.host with mode := if code = 16 then .live else if code = 4 then .calibrate else .idle } }

/-- A reading between −100 °C and +100 °C is displayed faithfully: a Live tick with Celsius selected shows, at the positions
of P_LAYOUT, digits that weigh 62.5 × |q| rounded down, the letter C, and a minus sign exactly for a negative reading, with
no overflow (R44, R64 and R81, with the spec's derivations in R66, R67, R81 and R83; the tick is log 2's host step, and the
layout is log 7's). -/
def Obligations.ReadingIsDisplayedFaithfully : Prop :=
  ∀ (s : State) (b0 b1 : Byte) (rest : List HostStep),
    s.program = .tick (some (b0, b1)) .celsius :: rest → s.host.mode = .live → (readingOf b0 b1).natAbs < 1600 →
      ∃ t d o, stepN 7 s = .next t ∧ t.program = rest ∧ t.dec = some d ∧ t.enc = some o ∧
        weightedSum o = 125 * (readingOf b0 b1).natAbs / 2 ∧ o.ovf = false ∧ o.inv = false ∧
        o.neg = decide (readingOf b0 b1 < 0) ∧ o.neg = d.neg ∧
        (∀ i : Fin 5, lut s.config (o.d[i.val].setWidth 5) = some o.dseg[i.val]) ∧
        lut s.config 10 = some o.useg ∧ (if o.neg then lut s.config 12 = some o.sseg else o.sseg = 0xFF) ∧
        DisplayShows t.host o

/-! ### What the host presents, what it uses, and its sequences -/

/-- A host step that presents an operand puts it on its port and changes nothing else, but that new sensor bytes end what
the host had read before (R44, R46; log 12). -/
def Obligations.PresentedOperandsReachPorts : Prop :=
  ∀ (s : State) (rest : List HostStep),
    (∀ b0 b1 ok, s.program = .presentSensor b0 b1 ok :: rest →
      step s = .next { s with
        program := rest
        decB0 := b0
        decB1 := b1
        decOk := ok
        host := { s.host with readingReady := false, readError := false } }) ∧
    (∀ v, s.program = .presentValue v :: rest → step s = .next { s with program := rest, encV := v }) ∧
    (∀ g, s.program = .presentGlyph g :: rest → step s = .next { s with program := rest, lutG := g }) ∧
    (∀ d, s.program = .presentDifference d :: rest → step s = .next { s with program := rest, pwmD := d }) ∧
    (s.program = .passBaseline :: rest → step s = .next { s with program := rest, encV := s.host.baseline })

/-- What the host does with a reading of this tick: it passes the reading, or its conversion, on to `enc_v`, takes it as a
sample, passes one and the same difference on to `enc_v` and `pwm_d`, or goes on (R44). Nothing else changes, but that taking
a sample ends the reading's use (the field `readingReady`; log 9, log 12) and that the difference uses up a free value. The
conversion and the difference are free values (log 9, log 10), and that a sample is taken in every Mode is log 16. -/
def Obligations.ReadingReachesItsUse : Prop :=
  ∀ (s : State) (rest : List HostStep) (c : Flt), HasReading s c →
    (s.program = .passCelsius :: rest → step s = .next { s with program := rest, encV := c }) ∧
    (s.program = .passFahrenheit :: rest →
      step s = .next { s with program := rest, encV := Config.toFahrenheit c }) ∧
    (s.program = .takeSample :: rest →
      step s = .next { s with
        program := rest
        host := { s.host with samples := s.host.samples ++ [c], readingReady := false } }) ∧
    (s.program = .passDifference :: rest → s.host.inDifference = true →
      step s = .next { s with
        program := rest
        encV := Config.hostDifference s.draws s.host.baseline c
        pwmD := Config.hostDifference s.draws s.host.baseline c
        draws := s.draws + 1 }) ∧
    ∀ n, s.program = .skipUnlessReading n :: rest → step s = .next { s with program := rest }

/-- With no reading of this tick, after a failed read or with a result of an earlier tick, the host uses no decoder output:
each step that would surfaces the read error and changes nothing else, and the branch skips (R46, R69; log 12). -/
def Obligations.NoReadingSurfacesError : Prop :=
  ∀ (s : State) (rest : List HostStep), HasNoReading s →
    (∀ h, h ∈ [HostStep.passCelsius, .passFahrenheit, .takeSample] → s.program = h :: rest →
      step s = .next { s with program := rest, host := { s.host with readError := true } }) ∧
    (s.program = .passDifference :: rest → s.host.inDifference = true →
      step s = .next { s with program := rest, host := { s.host with readError := true } }) ∧
    ∀ n, s.program = .skipUnlessReading n :: rest →
      step s = .next { s with program := rest.drop n, host := { s.host with readError := true } }

/-- One tick of the host's control loop runs the sequence that the table of R44 gives for its Mode. In Live it reads,
decodes, converts if Fahrenheit is selected, and shows the value by ENC.PLAIN of the selected unit; in the show-difference
sub-loop it reads, decodes, and gives one difference to ENC.DIFF in Celsius and to PWMMAP. After a failed read it surfaces
the read error and shows nothing; elsewhere it does nothing of the block's. The form of the tick is log 2; the conversion is
a free value of log 10 and the difference one of log 9; the fields `readingReady` and `readError` are log 12; the bytes kept
after a failed read and the field `lastRead` are log 14, with the address of log 15; the layout is log 7; that the display and
the duties are written whatever the statuses are is log 18. -/
def Obligations.TicksFollowTable : Prop :=
  ∀ (s : State) (reply : Option (Byte × Byte)) (u : TempUnit) (rest : List HostStep),
    s.program = .tick reply u :: rest →
    (∀ b0 b1, s.host.mode = .live → reply = some (b0, b1) →
      ∃ d o h, stepN 7 s = .next { s with
          program := rest, sel := encode (.encPlain u), decB0 := b0, decB1 := b1, decOk := true, dec := some d
          encV := inUnit u (celsiusReading b0 b1), encUnit := u, encPath := .plain, enc := some o, host := h } ∧
        d.valid = true ∧ d.celsius = celsiusReading b0 b1 ∧
        exec (.encPlain u) { s with encV := inUnit u (celsiusReading b0 b1) } = .next { s with
          encV := inUnit u (celsiusReading b0 b1), encUnit := u, encPath := .plain, enc := some o } ∧
        DisplayShows h o ∧ h.mode = .live ∧ h.duty = s.host.duty ∧ h.baseline = s.host.baseline ∧
        h.readError = false) ∧
    (∀ b0 b1 v, s.host.mode = .calibrate → s.host.inDifference = true → reply = some (b0, b1) →
      v = Config.hostDifference s.draws s.host.baseline (celsiusReading b0 b1) →
      ∃ d o w h, stepN 9 s = .next { s with
          program := rest, sel := encode .pwmMap, decB0 := b0, decB1 := b1, decOk := true, dec := some d
          encV := v, encUnit := .celsius, encPath := .difference, enc := some o, pwmD := v, pwm := some w
          host := h, draws := s.draws + 1 } ∧
        d.valid = true ∧ d.celsius = celsiusReading b0 b1 ∧
        exec (.encDiff .celsius) { s with encV := v } = .next { s with
          encV := v, encUnit := .celsius, encPath := .difference, enc := some o } ∧
        exec .pwmMap { s with pwmD := v } = .next { s with pwmD := v, pwm := some w } ∧
        DisplayShows h o ∧ h.duty = #v[w.ch0, w.ch1, w.ch2] ∧ h.mode = .calibrate ∧ h.inDifference = true ∧
        h.baseline = s.host.baseline ∧ h.readError = false) ∧
    (s.host.mode = .live ∨ (s.host.mode = .calibrate ∧ s.host.inDifference = true) → reply = none →
      ∃ d, stepN 4 s = .next { s with
          program := rest, sel := 0b0000, decOk := false, dec := some d
          host := { s.host with
            lastRead := some { device := Config.sensorAddr, reg := 0x00, count := 2 }
            readingReady := true
            readError := true } } ∧
        d.valid = false ∧ d.status = 1) ∧
    (s.host.mode = .idle ∨ (s.host.mode = .calibrate ∧ s.host.inDifference = false) →
      step s = .next { s with program := rest })

/-- The set-baseline action runs the sequence that the table of R44 gives: 30 reads with a DECODE each, the host's mean of
the 30 readings as Baseline, and ENC.PLAIN of it in Celsius on the display. Outside Calibrate, and in the sub-loop, it does
nothing (E5; log 8); after a failed read the host surfaces the read error (the field `readError`, log 12) and Baseline and the
display stay (the model's choice, log 9). The form of the action is log 2; the mean is a free value of log 9; that the
readings are emptied at the start and at the end is log 16; the layout is log 7; that Baseline is shown whatever ENC's status
is is log 18. -/
def Obligations.BaselineActionFollowsTable : Prop :=
  ∀ (s : State) (replies : Vector (Option (Byte × Byte)) 30) (rest : List HostStep),
    s.program = .baselineAction replies :: rest →
    (∀ bytes : Vector (Byte × Byte) 30, s.host.mode = .calibrate → s.host.inDifference = false →
      replies = bytes.map some →
      ∃ t o, stepN 126 s = .next t ∧ t.program = rest ∧
        t.host.baseline = Config.hostMean s.draws (bytes.toList.map fun b => celsiusReading b.1 b.2) ∧
        t.host.samples = [] ∧ t.host.mode = .calibrate ∧ t.host.duty = s.host.duty ∧ t.pwm = s.pwm ∧
        t.encV = t.host.baseline ∧ t.encUnit = .celsius ∧ t.encPath = .plain ∧ t.enc = some o ∧
        exec (.encPlain .celsius) { s with encV := t.host.baseline } = .next { s with
          encV := t.host.baseline, encUnit := .celsius, encPath := .plain, enc := some o } ∧
        DisplayShows t.host o) ∧
    (s.host.mode = .calibrate → s.host.inDifference = false → (∃ i : Fin 30, replies[i.val] = none) →
      ∃ n t, stepN n s = .next t ∧ t.program = rest ∧ t.host.baseline = s.host.baseline ∧
        t.host.readError = true ∧ t.host.display = s.host.display ∧ t.host.dpMask = s.host.dpMask ∧ t.enc = s.enc) ∧
    (s.host.mode ≠ .calibrate ∨ s.host.inDifference = true → step s = .next { s with program := rest })
end

