-- ==== Sys2Proof/Laws/Decode.lean ====
section
/-! SUPPORT. What the decoder of an operation's words reads. -/

namespace Sys2Proof

/-- A word is a port value exactly when it fits. -/
theorem portValue_eq_ok {n w : Nat} {v : BitVec n} : portValue n w = .ok v ↔ v.toNat = w := by
  unfold portValue
  split
  · rename_i h
    constructor
    · intro hv; cases hv; simp [Nat.mod_eq_of_lt h]
    · rintro rfl; simp
  · rename_i h
    constructor
    · intro hv; cases hv
    · rintro rfl; exact absurd v.isLt h

/-- An operand is read exactly from a word that holds its value. -/
theorem readOperand_eq_ok {n : Nat} {ws rest : List Nat} {v : BitVec n} :
    readOperand n ws = .ok (v, rest) ↔ ws = v.toNat :: rest := by
  cases ws with
  | nil => simp [readOperand]
  | cons w tl =>
    simp only [readOperand]
    split
    · rename_i v' hv
      have hw := portValue_eq_ok.1 hv
      constructor
      · intro h; cases h; rw [hw]
      · intro h
        obtain ⟨h1, h2⟩ := List.cons.inj h
        have : v' = v := BitVec.eq_of_toNat_eq (by omega)
        rw [this, h2]
    · rename_i e he
      constructor
      · intro h; cases h
      · intro h
        obtain ⟨h1, h2⟩ := List.cons.inj h
        have := portValue_eq_ok.2 h1.symm
        rw [he] at this
        cases this

end Sys2Proof
end

