-- ==== Sys2Proof/Laws/State.lean ====
section
/-! SUPPORT. For each update of the state, and of the host's state, in Machine/Ops.lean, what it leaves in each field. -/

namespace Sys2Proof.Machine

@[simp] theorem driveDec_config (o : DecOut) (s : State) : (driveDec o s).config = s.config := rfl
@[simp] theorem driveDec_sel (o : DecOut) (s : State) : (driveDec o s).sel = s.sel := rfl
@[simp] theorem driveDec_decB0 (o : DecOut) (s : State) : (driveDec o s).decB0 = s.decB0 := rfl
@[simp] theorem driveDec_decB1 (o : DecOut) (s : State) : (driveDec o s).decB1 = s.decB1 := rfl
@[simp] theorem driveDec_decOk (o : DecOut) (s : State) : (driveDec o s).decOk = s.decOk := rfl
@[simp] theorem driveDec_encV (o : DecOut) (s : State) : (driveDec o s).encV = s.encV := rfl
@[simp] theorem driveDec_encUnit (o : DecOut) (s : State) : (driveDec o s).encUnit = s.encUnit := rfl
@[simp] theorem driveDec_encPath (o : DecOut) (s : State) : (driveDec o s).encPath = s.encPath := rfl
@[simp] theorem driveDec_lutG (o : DecOut) (s : State) : (driveDec o s).lutG = s.lutG := rfl
@[simp] theorem driveDec_pwmD (o : DecOut) (s : State) : (driveDec o s).pwmD = s.pwmD := rfl
@[simp] theorem driveDec_dec (o : DecOut) (s : State) : (driveDec o s).dec = some o := rfl
@[simp] theorem driveDec_enc (o : DecOut) (s : State) : (driveDec o s).enc = s.enc := rfl
@[simp] theorem driveDec_lut (o : DecOut) (s : State) : (driveDec o s).lut = s.lut := rfl
@[simp] theorem driveDec_pwm (o : DecOut) (s : State) : (driveDec o s).pwm = s.pwm := rfl
@[simp] theorem driveDec_host (o : DecOut) (s : State) : (driveDec o s).host = s.host := rfl
@[simp] theorem driveDec_program (o : DecOut) (s : State) : (driveDec o s).program = s.program := rfl
@[simp] theorem driveDec_draws (o : DecOut) (s : State) : (driveDec o s).draws = s.draws := rfl

@[simp] theorem driveEnc_config (o : EncOut) (s : State) : (driveEnc o s).config = s.config := rfl
@[simp] theorem driveEnc_sel (o : EncOut) (s : State) : (driveEnc o s).sel = s.sel := rfl
@[simp] theorem driveEnc_decB0 (o : EncOut) (s : State) : (driveEnc o s).decB0 = s.decB0 := rfl
@[simp] theorem driveEnc_decB1 (o : EncOut) (s : State) : (driveEnc o s).decB1 = s.decB1 := rfl
@[simp] theorem driveEnc_decOk (o : EncOut) (s : State) : (driveEnc o s).decOk = s.decOk := rfl
@[simp] theorem driveEnc_encV (o : EncOut) (s : State) : (driveEnc o s).encV = s.encV := rfl
@[simp] theorem driveEnc_encUnit (o : EncOut) (s : State) : (driveEnc o s).encUnit = s.encUnit := rfl
@[simp] theorem driveEnc_encPath (o : EncOut) (s : State) : (driveEnc o s).encPath = s.encPath := rfl
@[simp] theorem driveEnc_lutG (o : EncOut) (s : State) : (driveEnc o s).lutG = s.lutG := rfl
@[simp] theorem driveEnc_pwmD (o : EncOut) (s : State) : (driveEnc o s).pwmD = s.pwmD := rfl
@[simp] theorem driveEnc_dec (o : EncOut) (s : State) : (driveEnc o s).dec = s.dec := rfl
@[simp] theorem driveEnc_enc (o : EncOut) (s : State) : (driveEnc o s).enc = some o := rfl
@[simp] theorem driveEnc_lut (o : EncOut) (s : State) : (driveEnc o s).lut = s.lut := rfl
@[simp] theorem driveEnc_pwm (o : EncOut) (s : State) : (driveEnc o s).pwm = s.pwm := rfl
@[simp] theorem driveEnc_host (o : EncOut) (s : State) : (driveEnc o s).host = s.host := rfl
@[simp] theorem driveEnc_program (o : EncOut) (s : State) : (driveEnc o s).program = s.program := rfl
@[simp] theorem driveEnc_draws (o : EncOut) (s : State) : (driveEnc o s).draws = s.draws := rfl

@[simp] theorem driveLut_config (o : LutOut) (s : State) : (driveLut o s).config = s.config := rfl
@[simp] theorem driveLut_sel (o : LutOut) (s : State) : (driveLut o s).sel = s.sel := rfl
@[simp] theorem driveLut_decB0 (o : LutOut) (s : State) : (driveLut o s).decB0 = s.decB0 := rfl
@[simp] theorem driveLut_decB1 (o : LutOut) (s : State) : (driveLut o s).decB1 = s.decB1 := rfl
@[simp] theorem driveLut_decOk (o : LutOut) (s : State) : (driveLut o s).decOk = s.decOk := rfl
@[simp] theorem driveLut_encV (o : LutOut) (s : State) : (driveLut o s).encV = s.encV := rfl
@[simp] theorem driveLut_encUnit (o : LutOut) (s : State) : (driveLut o s).encUnit = s.encUnit := rfl
@[simp] theorem driveLut_encPath (o : LutOut) (s : State) : (driveLut o s).encPath = s.encPath := rfl
@[simp] theorem driveLut_lutG (o : LutOut) (s : State) : (driveLut o s).lutG = s.lutG := rfl
@[simp] theorem driveLut_pwmD (o : LutOut) (s : State) : (driveLut o s).pwmD = s.pwmD := rfl
@[simp] theorem driveLut_dec (o : LutOut) (s : State) : (driveLut o s).dec = s.dec := rfl
@[simp] theorem driveLut_enc (o : LutOut) (s : State) : (driveLut o s).enc = s.enc := rfl
@[simp] theorem driveLut_lut (o : LutOut) (s : State) : (driveLut o s).lut = some o := rfl
@[simp] theorem driveLut_pwm (o : LutOut) (s : State) : (driveLut o s).pwm = s.pwm := rfl
@[simp] theorem driveLut_host (o : LutOut) (s : State) : (driveLut o s).host = s.host := rfl
@[simp] theorem driveLut_program (o : LutOut) (s : State) : (driveLut o s).program = s.program := rfl
@[simp] theorem driveLut_draws (o : LutOut) (s : State) : (driveLut o s).draws = s.draws := rfl

@[simp] theorem drivePwm_config (o : PwmOut) (s : State) : (drivePwm o s).config = s.config := rfl
@[simp] theorem drivePwm_sel (o : PwmOut) (s : State) : (drivePwm o s).sel = s.sel := rfl
@[simp] theorem drivePwm_decB0 (o : PwmOut) (s : State) : (drivePwm o s).decB0 = s.decB0 := rfl
@[simp] theorem drivePwm_decB1 (o : PwmOut) (s : State) : (drivePwm o s).decB1 = s.decB1 := rfl
@[simp] theorem drivePwm_decOk (o : PwmOut) (s : State) : (drivePwm o s).decOk = s.decOk := rfl
@[simp] theorem drivePwm_encV (o : PwmOut) (s : State) : (drivePwm o s).encV = s.encV := rfl
@[simp] theorem drivePwm_encUnit (o : PwmOut) (s : State) : (drivePwm o s).encUnit = s.encUnit := rfl
@[simp] theorem drivePwm_encPath (o : PwmOut) (s : State) : (drivePwm o s).encPath = s.encPath := rfl
@[simp] theorem drivePwm_lutG (o : PwmOut) (s : State) : (drivePwm o s).lutG = s.lutG := rfl
@[simp] theorem drivePwm_pwmD (o : PwmOut) (s : State) : (drivePwm o s).pwmD = s.pwmD := rfl
@[simp] theorem drivePwm_dec (o : PwmOut) (s : State) : (drivePwm o s).dec = s.dec := rfl
@[simp] theorem drivePwm_enc (o : PwmOut) (s : State) : (drivePwm o s).enc = s.enc := rfl
@[simp] theorem drivePwm_lut (o : PwmOut) (s : State) : (drivePwm o s).lut = s.lut := rfl
@[simp] theorem drivePwm_pwm (o : PwmOut) (s : State) : (drivePwm o s).pwm = some o := rfl
@[simp] theorem drivePwm_host (o : PwmOut) (s : State) : (drivePwm o s).host = s.host := rfl
@[simp] theorem drivePwm_program (o : PwmOut) (s : State) : (drivePwm o s).program = s.program := rfl
@[simp] theorem drivePwm_draws (o : PwmOut) (s : State) : (drivePwm o s).draws = s.draws := rfl

@[simp] theorem driveEncSelect_config (u : TempUnit) (p : EncPath) (s : State) : (driveEncSelect u p s).config = s.config := rfl
@[simp] theorem driveEncSelect_sel (u : TempUnit) (p : EncPath) (s : State) : (driveEncSelect u p s).sel = s.sel := rfl
@[simp] theorem driveEncSelect_decB0 (u : TempUnit) (p : EncPath) (s : State) : (driveEncSelect u p s).decB0 = s.decB0 := rfl
@[simp] theorem driveEncSelect_decB1 (u : TempUnit) (p : EncPath) (s : State) : (driveEncSelect u p s).decB1 = s.decB1 := rfl
@[simp] theorem driveEncSelect_decOk (u : TempUnit) (p : EncPath) (s : State) : (driveEncSelect u p s).decOk = s.decOk := rfl
@[simp] theorem driveEncSelect_encV (u : TempUnit) (p : EncPath) (s : State) : (driveEncSelect u p s).encV = s.encV := rfl
@[simp] theorem driveEncSelect_encUnit (u : TempUnit) (p : EncPath) (s : State) : (driveEncSelect u p s).encUnit = u := rfl
@[simp] theorem driveEncSelect_encPath (u : TempUnit) (p : EncPath) (s : State) : (driveEncSelect u p s).encPath = p := rfl
@[simp] theorem driveEncSelect_lutG (u : TempUnit) (p : EncPath) (s : State) : (driveEncSelect u p s).lutG = s.lutG := rfl
@[simp] theorem driveEncSelect_pwmD (u : TempUnit) (p : EncPath) (s : State) : (driveEncSelect u p s).pwmD = s.pwmD := rfl
@[simp] theorem driveEncSelect_dec (u : TempUnit) (p : EncPath) (s : State) : (driveEncSelect u p s).dec = s.dec := rfl
@[simp] theorem driveEncSelect_enc (u : TempUnit) (p : EncPath) (s : State) : (driveEncSelect u p s).enc = s.enc := rfl
@[simp] theorem driveEncSelect_lut (u : TempUnit) (p : EncPath) (s : State) : (driveEncSelect u p s).lut = s.lut := rfl
@[simp] theorem driveEncSelect_pwm (u : TempUnit) (p : EncPath) (s : State) : (driveEncSelect u p s).pwm = s.pwm := rfl
@[simp] theorem driveEncSelect_host (u : TempUnit) (p : EncPath) (s : State) : (driveEncSelect u p s).host = s.host := rfl
@[simp] theorem driveEncSelect_program (u : TempUnit) (p : EncPath) (s : State) : (driveEncSelect u p s).program = s.program := rfl
@[simp] theorem driveEncSelect_draws (u : TempUnit) (p : EncPath) (s : State) : (driveEncSelect u p s).draws = s.draws := rfl

@[simp] theorem presentSensor_config (b0 b1 : Byte) (ok : Bool) (s : State) : (presentSensor b0 b1 ok s).config = s.config := rfl
@[simp] theorem presentSensor_sel (b0 b1 : Byte) (ok : Bool) (s : State) : (presentSensor b0 b1 ok s).sel = s.sel := rfl
@[simp] theorem presentSensor_decB0 (b0 b1 : Byte) (ok : Bool) (s : State) : (presentSensor b0 b1 ok s).decB0 = b0 := rfl
@[simp] theorem presentSensor_decB1 (b0 b1 : Byte) (ok : Bool) (s : State) : (presentSensor b0 b1 ok s).decB1 = b1 := rfl
@[simp] theorem presentSensor_decOk (b0 b1 : Byte) (ok : Bool) (s : State) : (presentSensor b0 b1 ok s).decOk = ok := rfl
@[simp] theorem presentSensor_encV (b0 b1 : Byte) (ok : Bool) (s : State) : (presentSensor b0 b1 ok s).encV = s.encV := rfl
@[simp] theorem presentSensor_encUnit (b0 b1 : Byte) (ok : Bool) (s : State) : (presentSensor b0 b1 ok s).encUnit = s.encUnit := rfl
@[simp] theorem presentSensor_encPath (b0 b1 : Byte) (ok : Bool) (s : State) : (presentSensor b0 b1 ok s).encPath = s.encPath := rfl
@[simp] theorem presentSensor_lutG (b0 b1 : Byte) (ok : Bool) (s : State) : (presentSensor b0 b1 ok s).lutG = s.lutG := rfl
@[simp] theorem presentSensor_pwmD (b0 b1 : Byte) (ok : Bool) (s : State) : (presentSensor b0 b1 ok s).pwmD = s.pwmD := rfl
@[simp] theorem presentSensor_dec (b0 b1 : Byte) (ok : Bool) (s : State) : (presentSensor b0 b1 ok s).dec = s.dec := rfl
@[simp] theorem presentSensor_enc (b0 b1 : Byte) (ok : Bool) (s : State) : (presentSensor b0 b1 ok s).enc = s.enc := rfl
@[simp] theorem presentSensor_lut (b0 b1 : Byte) (ok : Bool) (s : State) : (presentSensor b0 b1 ok s).lut = s.lut := rfl
@[simp] theorem presentSensor_pwm (b0 b1 : Byte) (ok : Bool) (s : State) : (presentSensor b0 b1 ok s).pwm = s.pwm := rfl
@[simp] theorem presentSensor_host (b0 b1 : Byte) (ok : Bool) (s : State) : (presentSensor b0 b1 ok s).host = awaitReading s.host := rfl
@[simp] theorem presentSensor_program (b0 b1 : Byte) (ok : Bool) (s : State) : (presentSensor b0 b1 ok s).program = s.program := rfl
@[simp] theorem presentSensor_draws (b0 b1 : Byte) (ok : Bool) (s : State) : (presentSensor b0 b1 ok s).draws = s.draws := rfl

@[simp] theorem presentFailedRead_config (s : State) : (presentFailedRead s).config = s.config := rfl
@[simp] theorem presentFailedRead_sel (s : State) : (presentFailedRead s).sel = s.sel := rfl
@[simp] theorem presentFailedRead_decB0 (s : State) : (presentFailedRead s).decB0 = s.decB0 := rfl
@[simp] theorem presentFailedRead_decB1 (s : State) : (presentFailedRead s).decB1 = s.decB1 := rfl
@[simp] theorem presentFailedRead_decOk (s : State) : (presentFailedRead s).decOk = false := rfl
@[simp] theorem presentFailedRead_encV (s : State) : (presentFailedRead s).encV = s.encV := rfl
@[simp] theorem presentFailedRead_encUnit (s : State) : (presentFailedRead s).encUnit = s.encUnit := rfl
@[simp] theorem presentFailedRead_encPath (s : State) : (presentFailedRead s).encPath = s.encPath := rfl
@[simp] theorem presentFailedRead_lutG (s : State) : (presentFailedRead s).lutG = s.lutG := rfl
@[simp] theorem presentFailedRead_pwmD (s : State) : (presentFailedRead s).pwmD = s.pwmD := rfl
@[simp] theorem presentFailedRead_dec (s : State) : (presentFailedRead s).dec = s.dec := rfl
@[simp] theorem presentFailedRead_enc (s : State) : (presentFailedRead s).enc = s.enc := rfl
@[simp] theorem presentFailedRead_lut (s : State) : (presentFailedRead s).lut = s.lut := rfl
@[simp] theorem presentFailedRead_pwm (s : State) : (presentFailedRead s).pwm = s.pwm := rfl
@[simp] theorem presentFailedRead_host (s : State) : (presentFailedRead s).host = awaitReading s.host := rfl
@[simp] theorem presentFailedRead_program (s : State) : (presentFailedRead s).program = s.program := rfl
@[simp] theorem presentFailedRead_draws (s : State) : (presentFailedRead s).draws = s.draws := rfl

@[simp] theorem presentValue_config (v : Flt) (s : State) : (presentValue v s).config = s.config := rfl
@[simp] theorem presentValue_sel (v : Flt) (s : State) : (presentValue v s).sel = s.sel := rfl
@[simp] theorem presentValue_decB0 (v : Flt) (s : State) : (presentValue v s).decB0 = s.decB0 := rfl
@[simp] theorem presentValue_decB1 (v : Flt) (s : State) : (presentValue v s).decB1 = s.decB1 := rfl
@[simp] theorem presentValue_decOk (v : Flt) (s : State) : (presentValue v s).decOk = s.decOk := rfl
@[simp] theorem presentValue_encV (v : Flt) (s : State) : (presentValue v s).encV = v := rfl
@[simp] theorem presentValue_encUnit (v : Flt) (s : State) : (presentValue v s).encUnit = s.encUnit := rfl
@[simp] theorem presentValue_encPath (v : Flt) (s : State) : (presentValue v s).encPath = s.encPath := rfl
@[simp] theorem presentValue_lutG (v : Flt) (s : State) : (presentValue v s).lutG = s.lutG := rfl
@[simp] theorem presentValue_pwmD (v : Flt) (s : State) : (presentValue v s).pwmD = s.pwmD := rfl
@[simp] theorem presentValue_dec (v : Flt) (s : State) : (presentValue v s).dec = s.dec := rfl
@[simp] theorem presentValue_enc (v : Flt) (s : State) : (presentValue v s).enc = s.enc := rfl
@[simp] theorem presentValue_lut (v : Flt) (s : State) : (presentValue v s).lut = s.lut := rfl
@[simp] theorem presentValue_pwm (v : Flt) (s : State) : (presentValue v s).pwm = s.pwm := rfl
@[simp] theorem presentValue_host (v : Flt) (s : State) : (presentValue v s).host = s.host := rfl
@[simp] theorem presentValue_program (v : Flt) (s : State) : (presentValue v s).program = s.program := rfl
@[simp] theorem presentValue_draws (v : Flt) (s : State) : (presentValue v s).draws = s.draws := rfl

@[simp] theorem presentGlyph_config (g : GlyphIndex) (s : State) : (presentGlyph g s).config = s.config := rfl
@[simp] theorem presentGlyph_sel (g : GlyphIndex) (s : State) : (presentGlyph g s).sel = s.sel := rfl
@[simp] theorem presentGlyph_decB0 (g : GlyphIndex) (s : State) : (presentGlyph g s).decB0 = s.decB0 := rfl
@[simp] theorem presentGlyph_decB1 (g : GlyphIndex) (s : State) : (presentGlyph g s).decB1 = s.decB1 := rfl
@[simp] theorem presentGlyph_decOk (g : GlyphIndex) (s : State) : (presentGlyph g s).decOk = s.decOk := rfl
@[simp] theorem presentGlyph_encV (g : GlyphIndex) (s : State) : (presentGlyph g s).encV = s.encV := rfl
@[simp] theorem presentGlyph_encUnit (g : GlyphIndex) (s : State) : (presentGlyph g s).encUnit = s.encUnit := rfl
@[simp] theorem presentGlyph_encPath (g : GlyphIndex) (s : State) : (presentGlyph g s).encPath = s.encPath := rfl
@[simp] theorem presentGlyph_lutG (g : GlyphIndex) (s : State) : (presentGlyph g s).lutG = g := rfl
@[simp] theorem presentGlyph_pwmD (g : GlyphIndex) (s : State) : (presentGlyph g s).pwmD = s.pwmD := rfl
@[simp] theorem presentGlyph_dec (g : GlyphIndex) (s : State) : (presentGlyph g s).dec = s.dec := rfl
@[simp] theorem presentGlyph_enc (g : GlyphIndex) (s : State) : (presentGlyph g s).enc = s.enc := rfl
@[simp] theorem presentGlyph_lut (g : GlyphIndex) (s : State) : (presentGlyph g s).lut = s.lut := rfl
@[simp] theorem presentGlyph_pwm (g : GlyphIndex) (s : State) : (presentGlyph g s).pwm = s.pwm := rfl
@[simp] theorem presentGlyph_host (g : GlyphIndex) (s : State) : (presentGlyph g s).host = s.host := rfl
@[simp] theorem presentGlyph_program (g : GlyphIndex) (s : State) : (presentGlyph g s).program = s.program := rfl
@[simp] theorem presentGlyph_draws (g : GlyphIndex) (s : State) : (presentGlyph g s).draws = s.draws := rfl

@[simp] theorem presentDifference_config (d : Flt) (s : State) : (presentDifference d s).config = s.config := rfl
@[simp] theorem presentDifference_sel (d : Flt) (s : State) : (presentDifference d s).sel = s.sel := rfl
@[simp] theorem presentDifference_decB0 (d : Flt) (s : State) : (presentDifference d s).decB0 = s.decB0 := rfl
@[simp] theorem presentDifference_decB1 (d : Flt) (s : State) : (presentDifference d s).decB1 = s.decB1 := rfl
@[simp] theorem presentDifference_decOk (d : Flt) (s : State) : (presentDifference d s).decOk = s.decOk := rfl
@[simp] theorem presentDifference_encV (d : Flt) (s : State) : (presentDifference d s).encV = s.encV := rfl
@[simp] theorem presentDifference_encUnit (d : Flt) (s : State) : (presentDifference d s).encUnit = s.encUnit := rfl
@[simp] theorem presentDifference_encPath (d : Flt) (s : State) : (presentDifference d s).encPath = s.encPath := rfl
@[simp] theorem presentDifference_lutG (d : Flt) (s : State) : (presentDifference d s).lutG = s.lutG := rfl
@[simp] theorem presentDifference_pwmD (d : Flt) (s : State) : (presentDifference d s).pwmD = d := rfl
@[simp] theorem presentDifference_dec (d : Flt) (s : State) : (presentDifference d s).dec = s.dec := rfl
@[simp] theorem presentDifference_enc (d : Flt) (s : State) : (presentDifference d s).enc = s.enc := rfl
@[simp] theorem presentDifference_lut (d : Flt) (s : State) : (presentDifference d s).lut = s.lut := rfl
@[simp] theorem presentDifference_pwm (d : Flt) (s : State) : (presentDifference d s).pwm = s.pwm := rfl
@[simp] theorem presentDifference_host (d : Flt) (s : State) : (presentDifference d s).host = s.host := rfl
@[simp] theorem presentDifference_program (d : Flt) (s : State) : (presentDifference d s).program = s.program := rfl
@[simp] theorem presentDifference_draws (d : Flt) (s : State) : (presentDifference d s).draws = s.draws := rfl

@[simp] theorem presentSel_config (sel : Sel) (s : State) : (presentSel sel s).config = s.config := rfl
@[simp] theorem presentSel_sel (sel : Sel) (s : State) : (presentSel sel s).sel = sel := rfl
@[simp] theorem presentSel_decB0 (sel : Sel) (s : State) : (presentSel sel s).decB0 = s.decB0 := rfl
@[simp] theorem presentSel_decB1 (sel : Sel) (s : State) : (presentSel sel s).decB1 = s.decB1 := rfl
@[simp] theorem presentSel_decOk (sel : Sel) (s : State) : (presentSel sel s).decOk = s.decOk := rfl
@[simp] theorem presentSel_encV (sel : Sel) (s : State) : (presentSel sel s).encV = s.encV := rfl
@[simp] theorem presentSel_encUnit (sel : Sel) (s : State) : (presentSel sel s).encUnit = s.encUnit := rfl
@[simp] theorem presentSel_encPath (sel : Sel) (s : State) : (presentSel sel s).encPath = s.encPath := rfl
@[simp] theorem presentSel_lutG (sel : Sel) (s : State) : (presentSel sel s).lutG = s.lutG := rfl
@[simp] theorem presentSel_pwmD (sel : Sel) (s : State) : (presentSel sel s).pwmD = s.pwmD := rfl
@[simp] theorem presentSel_dec (sel : Sel) (s : State) : (presentSel sel s).dec = s.dec := rfl
@[simp] theorem presentSel_enc (sel : Sel) (s : State) : (presentSel sel s).enc = s.enc := rfl
@[simp] theorem presentSel_lut (sel : Sel) (s : State) : (presentSel sel s).lut = s.lut := rfl
@[simp] theorem presentSel_pwm (sel : Sel) (s : State) : (presentSel sel s).pwm = s.pwm := rfl
@[simp] theorem presentSel_host (sel : Sel) (s : State) : (presentSel sel s).host = noteIssued sel s.host := rfl
@[simp] theorem presentSel_program (sel : Sel) (s : State) : (presentSel sel s).program = s.program := rfl
@[simp] theorem presentSel_draws (sel : Sel) (s : State) : (presentSel sel s).draws = s.draws := rfl

@[simp] theorem withHost_config (h : HostState) (s : State) : (withHost h s).config = s.config := rfl
@[simp] theorem withHost_sel (h : HostState) (s : State) : (withHost h s).sel = s.sel := rfl
@[simp] theorem withHost_decB0 (h : HostState) (s : State) : (withHost h s).decB0 = s.decB0 := rfl
@[simp] theorem withHost_decB1 (h : HostState) (s : State) : (withHost h s).decB1 = s.decB1 := rfl
@[simp] theorem withHost_decOk (h : HostState) (s : State) : (withHost h s).decOk = s.decOk := rfl
@[simp] theorem withHost_encV (h : HostState) (s : State) : (withHost h s).encV = s.encV := rfl
@[simp] theorem withHost_encUnit (h : HostState) (s : State) : (withHost h s).encUnit = s.encUnit := rfl
@[simp] theorem withHost_encPath (h : HostState) (s : State) : (withHost h s).encPath = s.encPath := rfl
@[simp] theorem withHost_lutG (h : HostState) (s : State) : (withHost h s).lutG = s.lutG := rfl
@[simp] theorem withHost_pwmD (h : HostState) (s : State) : (withHost h s).pwmD = s.pwmD := rfl
@[simp] theorem withHost_dec (h : HostState) (s : State) : (withHost h s).dec = s.dec := rfl
@[simp] theorem withHost_enc (h : HostState) (s : State) : (withHost h s).enc = s.enc := rfl
@[simp] theorem withHost_lut (h : HostState) (s : State) : (withHost h s).lut = s.lut := rfl
@[simp] theorem withHost_pwm (h : HostState) (s : State) : (withHost h s).pwm = s.pwm := rfl
@[simp] theorem withHost_host (h : HostState) (s : State) : (withHost h s).host = h := rfl
@[simp] theorem withHost_program (h : HostState) (s : State) : (withHost h s).program = s.program := rfl
@[simp] theorem withHost_draws (h : HostState) (s : State) : (withHost h s).draws = s.draws := rfl

@[simp] theorem withHostDraw_config (h : HostState) (s : State) : (withHostDraw h s).config = s.config := rfl
@[simp] theorem withHostDraw_sel (h : HostState) (s : State) : (withHostDraw h s).sel = s.sel := rfl
@[simp] theorem withHostDraw_decB0 (h : HostState) (s : State) : (withHostDraw h s).decB0 = s.decB0 := rfl
@[simp] theorem withHostDraw_decB1 (h : HostState) (s : State) : (withHostDraw h s).decB1 = s.decB1 := rfl
@[simp] theorem withHostDraw_decOk (h : HostState) (s : State) : (withHostDraw h s).decOk = s.decOk := rfl
@[simp] theorem withHostDraw_encV (h : HostState) (s : State) : (withHostDraw h s).encV = s.encV := rfl
@[simp] theorem withHostDraw_encUnit (h : HostState) (s : State) : (withHostDraw h s).encUnit = s.encUnit := rfl
@[simp] theorem withHostDraw_encPath (h : HostState) (s : State) : (withHostDraw h s).encPath = s.encPath := rfl
@[simp] theorem withHostDraw_lutG (h : HostState) (s : State) : (withHostDraw h s).lutG = s.lutG := rfl
@[simp] theorem withHostDraw_pwmD (h : HostState) (s : State) : (withHostDraw h s).pwmD = s.pwmD := rfl
@[simp] theorem withHostDraw_dec (h : HostState) (s : State) : (withHostDraw h s).dec = s.dec := rfl
@[simp] theorem withHostDraw_enc (h : HostState) (s : State) : (withHostDraw h s).enc = s.enc := rfl
@[simp] theorem withHostDraw_lut (h : HostState) (s : State) : (withHostDraw h s).lut = s.lut := rfl
@[simp] theorem withHostDraw_pwm (h : HostState) (s : State) : (withHostDraw h s).pwm = s.pwm := rfl
@[simp] theorem withHostDraw_host (h : HostState) (s : State) : (withHostDraw h s).host = h := rfl
@[simp] theorem withHostDraw_program (h : HostState) (s : State) : (withHostDraw h s).program = s.program := rfl
@[simp] theorem withHostDraw_draws (h : HostState) (s : State) : (withHostDraw h s).draws = s.draws + 1 := rfl

@[simp] theorem withProgram_config (p : List HostStep) (s : State) : (withProgram p s).config = s.config := rfl
@[simp] theorem withProgram_sel (p : List HostStep) (s : State) : (withProgram p s).sel = s.sel := rfl
@[simp] theorem withProgram_decB0 (p : List HostStep) (s : State) : (withProgram p s).decB0 = s.decB0 := rfl
@[simp] theorem withProgram_decB1 (p : List HostStep) (s : State) : (withProgram p s).decB1 = s.decB1 := rfl
@[simp] theorem withProgram_decOk (p : List HostStep) (s : State) : (withProgram p s).decOk = s.decOk := rfl
@[simp] theorem withProgram_encV (p : List HostStep) (s : State) : (withProgram p s).encV = s.encV := rfl
@[simp] theorem withProgram_encUnit (p : List HostStep) (s : State) : (withProgram p s).encUnit = s.encUnit := rfl
@[simp] theorem withProgram_encPath (p : List HostStep) (s : State) : (withProgram p s).encPath = s.encPath := rfl
@[simp] theorem withProgram_lutG (p : List HostStep) (s : State) : (withProgram p s).lutG = s.lutG := rfl
@[simp] theorem withProgram_pwmD (p : List HostStep) (s : State) : (withProgram p s).pwmD = s.pwmD := rfl
@[simp] theorem withProgram_dec (p : List HostStep) (s : State) : (withProgram p s).dec = s.dec := rfl
@[simp] theorem withProgram_enc (p : List HostStep) (s : State) : (withProgram p s).enc = s.enc := rfl
@[simp] theorem withProgram_lut (p : List HostStep) (s : State) : (withProgram p s).lut = s.lut := rfl
@[simp] theorem withProgram_pwm (p : List HostStep) (s : State) : (withProgram p s).pwm = s.pwm := rfl
@[simp] theorem withProgram_host (p : List HostStep) (s : State) : (withProgram p s).host = s.host := rfl
@[simp] theorem withProgram_program (p : List HostStep) (s : State) : (withProgram p s).program = p := rfl
@[simp] theorem withProgram_draws (p : List HostStep) (s : State) : (withProgram p s).draws = s.draws := rfl

@[simp] theorem awaitReading_mode (h : HostState) : (awaitReading h).mode = h.mode := rfl
@[simp] theorem awaitReading_inDifference (h : HostState) : (awaitReading h).inDifference = h.inDifference := rfl
@[simp] theorem awaitReading_baseline (h : HostState) : (awaitReading h).baseline = h.baseline := rfl
@[simp] theorem awaitReading_samples (h : HostState) : (awaitReading h).samples = h.samples := rfl
@[simp] theorem awaitReading_display (h : HostState) : (awaitReading h).display = h.display := rfl
@[simp] theorem awaitReading_dpMask (h : HostState) : (awaitReading h).dpMask = h.dpMask := rfl
@[simp] theorem awaitReading_duty (h : HostState) : (awaitReading h).duty = h.duty := rfl
@[simp] theorem awaitReading_readingReady (h : HostState) : (awaitReading h).readingReady = false := rfl
@[simp] theorem awaitReading_readError (h : HostState) : (awaitReading h).readError = false := rfl
@[simp] theorem awaitReading_idMismatch (h : HostState) : (awaitReading h).idMismatch = h.idMismatch := rfl
@[simp] theorem awaitReading_lastRead (h : HostState) : (awaitReading h).lastRead = h.lastRead := rfl

@[simp] theorem surfaceReadError_mode (h : HostState) : (surfaceReadError h).mode = h.mode := rfl
@[simp] theorem surfaceReadError_inDifference (h : HostState) : (surfaceReadError h).inDifference = h.inDifference := rfl
@[simp] theorem surfaceReadError_baseline (h : HostState) : (surfaceReadError h).baseline = h.baseline := rfl
@[simp] theorem surfaceReadError_samples (h : HostState) : (surfaceReadError h).samples = h.samples := rfl
@[simp] theorem surfaceReadError_display (h : HostState) : (surfaceReadError h).display = h.display := rfl
@[simp] theorem surfaceReadError_dpMask (h : HostState) : (surfaceReadError h).dpMask = h.dpMask := rfl
@[simp] theorem surfaceReadError_duty (h : HostState) : (surfaceReadError h).duty = h.duty := rfl
@[simp] theorem surfaceReadError_readingReady (h : HostState) : (surfaceReadError h).readingReady = h.readingReady := rfl
@[simp] theorem surfaceReadError_readError (h : HostState) : (surfaceReadError h).readError = true := rfl
@[simp] theorem surfaceReadError_idMismatch (h : HostState) : (surfaceReadError h).idMismatch = h.idMismatch := rfl
@[simp] theorem surfaceReadError_lastRead (h : HostState) : (surfaceReadError h).lastRead = h.lastRead := rfl

@[simp] theorem noteIssued_mode (sel : Sel) (h : HostState) : (noteIssued sel h).mode = h.mode := rfl
@[simp] theorem noteIssued_inDifference (sel : Sel) (h : HostState) : (noteIssued sel h).inDifference = h.inDifference := rfl
@[simp] theorem noteIssued_baseline (sel : Sel) (h : HostState) : (noteIssued sel h).baseline = h.baseline := rfl
@[simp] theorem noteIssued_samples (sel : Sel) (h : HostState) : (noteIssued sel h).samples = h.samples := rfl
@[simp] theorem noteIssued_display (sel : Sel) (h : HostState) : (noteIssued sel h).display = h.display := rfl
@[simp] theorem noteIssued_dpMask (sel : Sel) (h : HostState) : (noteIssued sel h).dpMask = h.dpMask := rfl
@[simp] theorem noteIssued_duty (sel : Sel) (h : HostState) : (noteIssued sel h).duty = h.duty := rfl
@[simp] theorem noteIssued_readingReady (sel : Sel) (h : HostState) : (noteIssued sel h).readingReady = (h.readingReady || sel == encode .decode) := rfl
@[simp] theorem noteIssued_readError (sel : Sel) (h : HostState) : (noteIssued sel h).readError = h.readError := rfl
@[simp] theorem noteIssued_idMismatch (sel : Sel) (h : HostState) : (noteIssued sel h).idMismatch = h.idMismatch := rfl
@[simp] theorem noteIssued_lastRead (sel : Sel) (h : HostState) : (noteIssued sel h).lastRead = h.lastRead := rfl

@[simp] theorem addSample_mode (c : Flt) (h : HostState) : (addSample c h).mode = h.mode := rfl
@[simp] theorem addSample_inDifference (c : Flt) (h : HostState) : (addSample c h).inDifference = h.inDifference := rfl
@[simp] theorem addSample_baseline (c : Flt) (h : HostState) : (addSample c h).baseline = h.baseline := rfl
@[simp] theorem addSample_samples (c : Flt) (h : HostState) : (addSample c h).samples = h.samples ++ [c] := rfl
@[simp] theorem addSample_display (c : Flt) (h : HostState) : (addSample c h).display = h.display := rfl
@[simp] theorem addSample_dpMask (c : Flt) (h : HostState) : (addSample c h).dpMask = h.dpMask := rfl
@[simp] theorem addSample_duty (c : Flt) (h : HostState) : (addSample c h).duty = h.duty := rfl
@[simp] theorem addSample_readingReady (c : Flt) (h : HostState) : (addSample c h).readingReady = false := rfl
@[simp] theorem addSample_readError (c : Flt) (h : HostState) : (addSample c h).readError = h.readError := rfl
@[simp] theorem addSample_idMismatch (c : Flt) (h : HostState) : (addSample c h).idMismatch = h.idMismatch := rfl
@[simp] theorem addSample_lastRead (c : Flt) (h : HostState) : (addSample c h).lastRead = h.lastRead := rfl

@[simp] theorem putRead_mode (reg : Byte) (n : Nat) (h : HostState) : (putRead reg n h).mode = h.mode := rfl
@[simp] theorem putRead_inDifference (reg : Byte) (n : Nat) (h : HostState) : (putRead reg n h).inDifference = h.inDifference := rfl
@[simp] theorem putRead_baseline (reg : Byte) (n : Nat) (h : HostState) : (putRead reg n h).baseline = h.baseline := rfl
@[simp] theorem putRead_samples (reg : Byte) (n : Nat) (h : HostState) : (putRead reg n h).samples = h.samples := rfl
@[simp] theorem putRead_display (reg : Byte) (n : Nat) (h : HostState) : (putRead reg n h).display = h.display := rfl
@[simp] theorem putRead_dpMask (reg : Byte) (n : Nat) (h : HostState) : (putRead reg n h).dpMask = h.dpMask := rfl
@[simp] theorem putRead_duty (reg : Byte) (n : Nat) (h : HostState) : (putRead reg n h).duty = h.duty := rfl
@[simp] theorem putRead_readingReady (reg : Byte) (n : Nat) (h : HostState) : (putRead reg n h).readingReady = h.readingReady := rfl
@[simp] theorem putRead_readError (reg : Byte) (n : Nat) (h : HostState) : (putRead reg n h).readError = h.readError := rfl
@[simp] theorem putRead_idMismatch (reg : Byte) (n : Nat) (h : HostState) : (putRead reg n h).idMismatch = h.idMismatch := rfl
@[simp] theorem putRead_lastRead (reg : Byte) (n : Nat) (h : HostState) : (putRead reg n h).lastRead = some ⟨Config.sensorAddr, reg, n⟩ := rfl

@[simp] theorem logIdentity_mode (b : Byte) (h : HostState) : (logIdentity b h).mode = h.mode := rfl
@[simp] theorem logIdentity_inDifference (b : Byte) (h : HostState) : (logIdentity b h).inDifference = h.inDifference := rfl
@[simp] theorem logIdentity_baseline (b : Byte) (h : HostState) : (logIdentity b h).baseline = h.baseline := rfl
@[simp] theorem logIdentity_samples (b : Byte) (h : HostState) : (logIdentity b h).samples = h.samples := rfl
@[simp] theorem logIdentity_display (b : Byte) (h : HostState) : (logIdentity b h).display = h.display := rfl
@[simp] theorem logIdentity_dpMask (b : Byte) (h : HostState) : (logIdentity b h).dpMask = h.dpMask := rfl
@[simp] theorem logIdentity_duty (b : Byte) (h : HostState) : (logIdentity b h).duty = h.duty := rfl
@[simp] theorem logIdentity_readingReady (b : Byte) (h : HostState) : (logIdentity b h).readingReady = h.readingReady := rfl
@[simp] theorem logIdentity_readError (b : Byte) (h : HostState) : (logIdentity b h).readError = h.readError := rfl
@[simp] theorem logIdentity_idMismatch (b : Byte) (h : HostState) : (logIdentity b h).idMismatch = (b != Config.idExpected) := rfl
@[simp] theorem logIdentity_lastRead (b : Byte) (h : HostState) : (logIdentity b h).lastRead = h.lastRead := rfl

end Sys2Proof.Machine
end

