-- ==== Sys2Proof/Laws/Exec.lean ====
section
/-! SUPPORT. What an operation of the block can answer, once for each. -/

namespace Sys2Proof.Machine

theorem exec_decode (s : State) : exec .decode s = .next (driveDec (decOutput (sensorOperand s)) s) := rfl

theorem exec_encPlain (u : TempUnit) (s : State) :
    exec (.encPlain u) s = .next (driveEnc (encOutput s.config .plain s.encV u) (driveEncSelect u .plain s)) := rfl

theorem exec_encDiff (u : TempUnit) (s : State) :
    exec (.encDiff u) s = .next (driveEnc (encOutput s.config .difference s.encV u) (driveEncSelect u .difference s)) :=
  rfl

theorem exec_pwmMap (s : State) : exec .pwmMap s = .next (drivePwm (pwmOutput s.pwmD) s) := rfl

theorem exec_segLut_of_some {s : State} {seg : SegPattern} (h : lut s.config s.lutG = some seg) :
    exec .segLut s = .next (driveLut (lutOutput seg) s) := by
  simp [exec, execSegLut, glyphOperand, h]

theorem exec_segLut_of_none {s : State} (h : lut s.config s.lutG = none) :
    exec .segLut s = .refused (.lutReserved s.lutG) := by
  simp [exec, execSegLut, glyphOperand, h]

/-- An operation that answers a next state has driven the outputs of its own unit, from its operands. -/
theorem exec_eq_next {i : Instr} {s s' : State} (h : exec i s = .next s') :
    (i = .decode ∧ s' = driveDec (decOutput (sensorOperand s)) s) ∨
      (∃ u, i = .encPlain u ∧
        s' = driveEnc (encOutput s.config .plain s.encV u) (driveEncSelect u .plain s)) ∨
      (∃ u, i = .encDiff u ∧
        s' = driveEnc (encOutput s.config .difference s.encV u) (driveEncSelect u .difference s)) ∨
      (∃ seg, i = .segLut ∧ lut s.config s.lutG = some seg ∧ s' = driveLut (lutOutput seg) s) ∨
      (i = .pwmMap ∧ s' = drivePwm (pwmOutput s.pwmD) s) := by
  cases i with
  | decode => rw [exec_decode] at h; cases h; exact .inl ⟨rfl, rfl⟩
  | encPlain u => rw [exec_encPlain] at h; cases h; exact .inr (.inl ⟨u, rfl, rfl⟩)
  | encDiff u => rw [exec_encDiff] at h; cases h; exact .inr (.inr (.inl ⟨u, rfl, rfl⟩))
  | segLut =>
    cases hl : lut s.config s.lutG with
    | none => rw [exec_segLut_of_none hl] at h; cases h
    | some seg =>
      rw [exec_segLut_of_some hl] at h; cases h
      exact .inr (.inr (.inr (.inl ⟨seg, rfl, rfl, rfl⟩)))
  | pwmMap => rw [exec_pwmMap] at h; cases h; exact .inr (.inr (.inr (.inr ⟨rfl, rfl⟩)))

end Sys2Proof.Machine
end

