-- ==== Sys2Proof/Laws/Float.lean ====
section
/-! SUPPORT. What the binary32 operations of Machine/Float.lean do: the fields of a value, the value that `fl` rounds to,
and when it is exact. -/

namespace Sys2Proof.Machine

/-- The value with the given bits 30:0. -/
theorem fltUnits_ofNat {b : Nat} (h : b < 2 ^ 31) :
    fltUnits (BitVec.ofNat 32 b) = if b < 2 ^ 23 then b else (2 ^ 23 + b % 2 ^ 23) * 2 ^ (b / 2 ^ 23 - 1) := by
  have hb : b % 2 ^ 32 = b := Nat.mod_eq_of_lt (by omega)
  have he : fltExp (BitVec.ofNat 32 b) = b / 2 ^ 23 := by
    simp only [fltExp, BitVec.toNat_ofNat, hb]; omega
  have hf : fltFrac (BitVec.ofNat 32 b) = b % 2 ^ 23 := by
    simp only [fltFrac, BitVec.toNat_ofNat, hb]
  simp only [fltUnits, he, hf]
  by_cases hs : b < 2 ^ 23
  · have : b / 2 ^ 23 = 0 := by omega
    rw [if_pos this, if_pos hs]; omega
  · have : b / 2 ^ 23 ≠ 0 := by omega
    rw [if_neg this, if_neg hs]

/-- The exponent field of a value given by its bits 30:0. -/
theorem fltExp_ofNat {b : Nat} (h : b < 2 ^ 31) : fltExp (BitVec.ofNat 32 b) = b / 2 ^ 23 := by
  simp only [fltExp, BitVec.toNat_ofNat]; omega

/-- The sign bit does not count in the magnitude. -/
theorem fltUnits_sign (b : Nat) : fltUnits (BitVec.ofNat 32 (2 ^ 31 + b)) = fltUnits (BitVec.ofNat 32 b) := by
  have he : fltExp (BitVec.ofNat 32 (2 ^ 31 + b)) = fltExp (BitVec.ofNat 32 b) := by
    simp only [fltExp, BitVec.toNat_ofNat]; omega
  have hf : fltFrac (BitVec.ofNat 32 (2 ^ 31 + b)) = fltFrac (BitVec.ofNat 32 b) := by
    simp only [fltFrac, BitVec.toNat_ofNat]; omega
  simp only [fltUnits, he, hf]

/-- The sign bit does not count in the exponent field. -/
theorem fltExp_sign (b : Nat) : fltExp (BitVec.ofNat 32 (2 ^ 31 + b)) = fltExp (BitVec.ofNat 32 b) := by
  simp only [fltExp, BitVec.toNat_ofNat]; omega

theorem fltSign_ofNat {b : Nat} (h : b < 2 ^ 31) : fltSign (BitVec.ofNat 32 b) = false := by
  simp only [fltSign, BitVec.getLsbD_ofNat]
  simp [Nat.testBit_lt_two_pow h]

theorem fltSign_ofNat_sign {b : Nat} (h : b < 2 ^ 31) : fltSign (BitVec.ofNat 32 (2 ^ 31 + b)) = true := by
  rw [fltSign, BitVec.getLsbD_ofNat, Nat.testBit_two_pow_add_eq, Nat.testBit_lt_two_pow h]
  rfl

/-- What `|v|` keeps: bits 30:0. -/
theorem fltAbs_toNat (v : Flt) : (fltAbs v).toNat = v.toNat % 2 ^ 31 := by
  have := Nat.and_two_pow_sub_one_eq_mod v.toNat 31
  simpa [fltAbs] using this

theorem fltAbs_units (v : Flt) : fltUnits (fltAbs v) = fltUnits v := by
  have h := fltAbs_toNat v
  have he : fltExp (fltAbs v) = fltExp v := by
    simp only [fltExp, h]; omega
  have hf : fltFrac (fltAbs v) = fltFrac v := by
    simp only [fltFrac, h]; omega
  simp only [fltUnits, he, hf]

/-- The significand before rounding has at most 24 bits, and exactly 24 where bits are cut off. -/
theorem significand_bounds (n : Nat) :
    n / 2 ^ excessBits n < 2 ^ 24 ∧ (0 < excessBits n → 2 ^ 23 ≤ n / 2 ^ excessBits n) := by
  rcases Nat.eq_zero_or_pos n with rfl | hn
  · simp [excessBits]
  have hlo : 2 ^ n.log2 ≤ n := Nat.log2_self_le (by omega)
  have hhi : n < 2 ^ (n.log2 + 1) := Nat.lt_log2_self
  unfold excessBits
  constructor
  · rw [Nat.div_lt_iff_lt_mul (by positivity), ← pow_add]
    exact lt_of_lt_of_le hhi (Nat.pow_le_pow_right (by norm_num) (by omega))
  · intro hk
    rw [Nat.le_div_iff_mul_le (by positivity), ← pow_add]
    have : 23 + (n.log2 - 23) = n.log2 := by omega
    rwa [this]

/-- Rounding gives the quotient or the next integer. -/
theorem roundEven_cases (n k : Nat) : roundEven n k = n / 2 ^ k ∨ roundEven n k = n / 2 ^ k + 1 := by
  unfold roundEven; split <;> simp

/-- Nothing is cut off, so nothing is rounded. -/
theorem roundEven_of_dvd {n k : Nat} (h : 2 ^ k ∣ n) : roundEven n k = n / 2 ^ k := by
  have h0 : n % 2 ^ k = 0 := Nat.mod_eq_zero_of_dvd h
  have hp : 0 < 2 ^ k := by positivity
  unfold roundEven
  rw [if_neg]
  rw [h0]
  omega

theorem flMagnitude_le (n : Nat) : flMagnitude n ≤ infinityBits := Nat.min_le_right _ _

theorem flMagnitude_lt (n : Nat) : flMagnitude n < 2 ^ 31 :=
  lt_of_le_of_lt (flMagnitude_le n) (by decide)

/-- The exponent field that the rounded magnitude gets is right: its value is the rounded significand, scaled. -/
theorem flMagnitude_units {n : Nat} (h : excessBits n * 2 ^ 23 + roundEven n (excessBits n) < infinityBits) :
    fltUnits (BitVec.ofNat 32 (flMagnitude n)) = roundEven n (excessBits n) * 2 ^ excessBits n := by
  have hm : flMagnitude n = excessBits n * 2 ^ 23 + roundEven n (excessBits n) := Nat.min_eq_left h.le
  have hb := significand_bounds n
  have hc := roundEven_cases n (excessBits n)
  rw [fltUnits_ofNat (flMagnitude_lt n), hm]
  generalize hq : roundEven n (excessBits n) = q at *
  rcases Nat.eq_zero_or_pos (excessBits n) with hk | hk
  · have hr : q = n := by
      rw [← hq, hk, roundEven_of_dvd (by simp)]; simp
    have hn : q < 2 ^ 24 := by
      have := hb.1; rw [hk] at this; simp at this; omega
    rw [hk]
    simp only [Nat.zero_mul, Nat.zero_add, pow_zero, mul_one]
    by_cases hs : q < 2 ^ 23
    · rw [if_pos hs]
    · rw [if_neg hs]
      have h1 : q / 2 ^ 23 = 1 := by omega
      rw [h1]; simp; omega
  · have hlo := hb.2 hk
    generalize excessBits n = k at *
    rw [if_neg (by omega)]
    rcases Nat.lt_or_ge q (2 ^ 24) with hq24 | hq24
    · have h1 : (k * 2 ^ 23 + q) / 2 ^ 23 = k + 1 := by omega
      have h2 : 2 ^ 23 + (k * 2 ^ 23 + q) % 2 ^ 23 = q := by omega
      rw [h1, h2]; simp
    · have h0 : q = 2 ^ 24 := by omega
      have h1 : (k * 2 ^ 23 + q) / 2 ^ 23 = k + 2 := by omega
      have h2 : (k * 2 ^ 23 + q) % 2 ^ 23 = 0 := by omega
      rw [h1, h2, h0]
      have : k + 2 - 1 = k + 1 := by omega
      rw [this, pow_succ]; ring

/-- The value of `fl` has the sign of its argument and the rounded magnitude. -/
theorem fltReal_fl (n : Int) :
    fltReal (fl n) =
      if n < 0 then -(fltUnits (BitVec.ofNat 32 (flMagnitude n.natAbs)) : Int)
      else (fltUnits (BitVec.ofNat 32 (flMagnitude n.natAbs)) : Int) := by
  have hlt := flMagnitude_lt n.natAbs
  unfold fltReal fl
  split
  · rw [fltSign_ofNat_sign hlt, fltUnits_sign]; simp
  · rw [fltSign_ofNat hlt]; simp

/-- `fl` gives a finite value exactly when the rounded magnitude stays below infinity. -/
theorem isFinite_fl (n : Int) : isFinite (fl n) = true ↔ flMagnitude n.natAbs < infinityBits := by
  have hlt := flMagnitude_lt n.natAbs
  have hle := flMagnitude_le n.natAbs
  have he : fltExp (fl n) = flMagnitude n.natAbs / 2 ^ 23 := by
    unfold fl
    split
    · rw [fltExp_sign, fltExp_ofNat hlt]
    · rw [fltExp_ofNat hlt]
  simp only [isFinite, he, bne_iff_ne, ne_eq]
  have : infinityBits = 255 * 2 ^ 23 := by decide
  omega

/-- A magnitude that is a whole number of units in its last place, below the overflow threshold, is exact. -/
theorem flMagnitude_exact {n : Nat} (hd : 2 ^ excessBits n ∣ n) (hn : excessBits n ≤ 253) :
    flMagnitude n < infinityBits ∧ fltUnits (BitVec.ofNat 32 (flMagnitude n)) = n := by
  have hr := roundEven_of_dvd hd
  have hb := (significand_bounds n).1
  have hi : infinityBits = 255 * 2 ^ 23 := by decide
  have hlt : excessBits n * 2 ^ 23 + roundEven n (excessBits n) < infinityBits := by
    rw [hr, hi]; omega
  refine ⟨lt_of_le_of_lt (Nat.min_le_left _ _) hlt, ?_⟩
  rw [flMagnitude_units hlt, hr, Nat.div_mul_cancel hd]

/-- A significand of at most 24 bits, scaled, is a whole number of units in its last place. -/
theorem dvd_of_scaled {sig k : Nat} (hs : sig < 2 ^ 24) : 2 ^ excessBits (sig * 2 ^ k) ∣ sig * 2 ^ k := by
  rcases Nat.eq_zero_or_pos sig with rfl | hp
  · simp
  refine Dvd.dvd.mul_left (pow_dvd_pow 2 ?_) sig
  have hlt : (sig * 2 ^ k).log2 < 24 + k := by
    rw [Nat.log2_lt (by positivity), pow_add]
    exact Nat.mul_lt_mul_of_pos_right hs (by positivity)
  unfold excessBits
  omega

/-- The excess of a magnitude below a power of two. -/
theorem excessBits_le {n b : Nat} (h : n < 2 ^ (24 + b)) : excessBits n ≤ b := by
  rcases Nat.eq_zero_or_pos n with rfl | hp
  · simp [excessBits]
  have : n.log2 < 24 + b := (Nat.log2_lt (by omega)).2 h
  unfold excessBits
  omega

/-- `fl` is exact on a significand of at most 24 bits, scaled and signed, below the overflow threshold. -/
theorem fl_exact {n : Int} {sig k : Nat} (hn : n.natAbs = sig * 2 ^ k) (hs : sig < 2 ^ 24) (hlt : n.natAbs < 2 ^ (24 + 253)) :
    isFinite (fl n) = true ∧ fltReal (fl n) = n := by
  have hd : 2 ^ excessBits n.natAbs ∣ n.natAbs := by rw [hn]; exact dvd_of_scaled hs
  have he : excessBits n.natAbs ≤ 253 := excessBits_le (b := 253) hlt
  obtain ⟨hf, hu⟩ := flMagnitude_exact hd he
  refine ⟨(isFinite_fl n).2 hf, ?_⟩
  rw [fltReal_fl, hu]
  split <;> omega

end Sys2Proof.Machine
end

