-- ==== Sys2Proof/Laws/Ops.lean ====
section
/-! SUPPORT. What the shared operations of Machine/Ops.lean and the host's steps can answer. -/

namespace Sys2Proof.Machine

/-- The host reads a result exactly when the unit has one and its status is a code that a unit drives. -/
theorem readResult_eq_ok {α : Type} {u : BlockUnit} {status : α → StatusCode} {r : Option α} {o : α} :
    readResult u status r = .ok o ↔ r = some o ∧ status o ≠ statusNeverDriven := by
  cases r with
  | none => simp [readResult]
  | some o' =>
    simp only [readResult, Option.some.injEq]
    split
    · rename_i h
      constructor
      · intro hc; cases hc
      · rintro ⟨rfl, h'⟩; exact absurd h h'
    · rename_i h
      constructor
      · intro hc; cases hc; exact ⟨rfl, h⟩
      · rintro ⟨rfl, -⟩; rfl

/-- The host uses a temperature exactly when DEC's result is a reading, of this tick. -/
theorem readCelsius_eq_some {s : State} {c : Flt} :
    readCelsius s = .ok (some c) ↔
      ∃ o, readDec s = .ok o ∧ s.host.readingReady = true ∧ o.valid = true ∧ o.celsius = c := by
  unfold readCelsius
  split
  · rename_i f hf; simp [hf]
  · rename_i o ho
    simp [ho, and_assoc]

/-- A host step that uses the reading goes on with the reading of this tick, or surfaces the read error and changes
nothing else. -/
theorem withReading_eq_next {s s' : State} {k : Flt → State} :
    withReading s k = .next s' ↔
      (∃ c, readCelsius s = .ok (some c) ∧ s' = k c) ∨
        (readCelsius s = .ok none ∧ s' = withHost (surfaceReadError s.host) s) := by
  unfold withReading
  cases hr : readCelsius s with
  | error f => simp [withRead]
  | ok r => cases r <;> simp [withRead, eq_comm]

/-- The branch on a reading goes on, or surfaces the read error and skips. -/
theorem skipUnlessReading_eq_next {n : Nat} {s s' : State} :
    skipUnlessReading n s = .next s' ↔
      (∃ c, readCelsius s = .ok (some c) ∧ s' = s) ∨
        (readCelsius s = .ok none ∧
          s' = withProgram (s.program.drop n) (withHost (surfaceReadError s.host) s)) := by
  unfold skipUnlessReading
  cases hr : readCelsius s with
  | error f => simp [withRead]
  | ok r => cases r <;> simp [withRead, eq_comm]

/-- Taking up a sequence changes the program alone. -/
theorem enqueue_eq (steps : List HostStep) (s : State) :
    enqueue steps s = withProgram (steps ++ s.program) s := rfl

/-- Every output of ENC has a display position. -/
theorem exists_layout_eq (g : EncGlyph) : ∃ p, layout p = some g := by
  obtain ⟨k, hk⟩ : ∃ k, layoutSlot k = some g := by
    cases g with
    | unit => exact ⟨0, rfl⟩
    | sign => exact ⟨1, rfl⟩
    | digit i =>
      match i with
      | 0 => exact ⟨2, rfl⟩
      | 1 => exact ⟨3, rfl⟩
      | 2 => exact ⟨4, rfl⟩
      | 3 => exact ⟨5, rfl⟩
      | 4 => exact ⟨6, rfl⟩
  exact ⟨Config.positionOrder.symm k, by simp [layout, hk]⟩

/-- No two display positions share a bit of the decimal-point mask. -/
theorem maskBit_injective : Function.Injective maskBit := Config.maskOrder.injective

/-- What follows a read goes on only with what was read. -/
theorem withRead_eq_next {α : Type} {r : Except Fault α} {k : α → Host.Outcome State Fault Refusal} {s' : State} :
    withRead r k = .next s' ↔ ∃ a, r = .ok a ∧ k a = .next s' := by
  cases r <;> simp [withRead]

/-- A read that succeeds hands on what it read. -/
@[simp] theorem withRead_ok {α : Type} (a : α) (k : α → Host.Outcome State Fault Refusal) :
    withRead (.ok a) k = k a := rfl

/-- A read that faults stops the step with that fault. -/
@[simp] theorem withRead_error {α : Type} (f : Fault) (k : α → Host.Outcome State Fault Refusal) :
    withRead (.error f) k = .fault f := rfl

/-- What a sensor read that goes on does: it presents the bytes, or a failed read, or logs the identity byte, or changes
nothing, beside the read that it puts on the bus. -/
theorem memRead_eq_next {reg : Byte} {n : Nat} {reply : Option (List Byte)} {s s' : State}
    (h : memRead reg n reply s = .next s') :
    (∃ b0 b1, reply = some [b0, b1] ∧ reg = tempReg ∧ n = 2 ∧ s' = presentSensor b0 b1 true (withHost (putRead reg n s.host) s)) ∨
      (reply = none ∧ reg = tempReg ∧ n = 2 ∧ s' = presentFailedRead (withHost (putRead reg n s.host) s)) ∨
      (∃ b, reply = some [b] ∧ reg = idReg ∧ n = 1 ∧
        s' = withHost (logIdentity b (putRead reg n s.host)) s) ∨
      (reply = none ∧ reg = idReg ∧ n = 1 ∧ s' = withHost (putRead reg n s.host) s) := by
  unfold memRead at h
  split at h
  · rename_i hr
    unfold temperatureRead at h
    split at h
    · cases h; exact .inr (.inl ⟨rfl, hr.1, hr.2, rfl⟩)
    · cases h; exact .inl ⟨_, _, rfl, hr.1, hr.2, rfl⟩
    · cases h
  · split at h
    · rename_i hr
      unfold identityRead at h
      split at h
      · cases h; exact .inr (.inr (.inr ⟨rfl, hr.1, hr.2, rfl⟩))
      · cases h; exact .inr (.inr (.inl ⟨_, rfl, hr.1, hr.2, rfl⟩))
      · cases h
    · cases h

/-- What a button code does: nothing, or a change of the host's state that uses up at most one free value. -/
theorem button_cases (code : Nat) (s : State) :
    button code s = s ∨
      ∃ h, (button code s = withHost h s ∨ button code s = withHostDraw h s) ∧
        (h.duty = s.host.duty ∨ h.duty = dutiesOff) ∧
        (h.inDifference = true → h.mode = .calibrate ∨ (h.mode = s.host.mode ∧ s.host.inDifference = true)) := by
  unfold button
  split
  · split
    · exact .inr ⟨_, .inr rfl, .inr rfl, fun h => by simp [leaveDifference] at h⟩
    · exact .inl rfl
  · rename_i hd
    unfold buttonInMode
    split
    · split
      · exact .inl rfl
      · exact .inr ⟨_, .inr rfl, .inr rfl, fun h => by simp [enterIdle, clearDisplay, hd] at h⟩
    · split
      · split
        · exact .inl rfl
        · exact .inr ⟨_, .inl rfl, .inl rfl, fun h => absurd h (by simpa using hd)⟩
      · split
        · split
          · exact .inr ⟨_, .inl rfl, .inl rfl, fun _ => .inl rfl⟩
          · exact .inr ⟨_, .inr rfl, .inl rfl, fun _ => .inl rfl⟩
          · exact .inl rfl
        · split
          · exact .inr ⟨_, .inl rfl, .inl rfl, fun h => absurd h (by simpa using hd)⟩
          · split
            · rename_i hm
              exact .inr ⟨_, .inl rfl, .inl rfl, fun _ => .inl hm.2⟩
            · exact .inl rfl

end Sys2Proof.Machine
end

