-- ==== Sys2Proof/Laws/Step.lean ====
section
/-! SUPPORT. What a step can answer. -/

namespace Sys2Proof.Machine

/-- With nothing issued, a step changes nothing. -/
theorem step_of_nil {s : State} (h : s.program = []) : step s = .next s := by
  simp [step, nextIssue, h]

/-- A step takes the head of the program: an operation is decoded and run, anything else is the host's own step. -/
theorem step_of_cons {s : State} {h : HostStep} {rest : List HostStep} (hp : s.program = h :: rest) :
    step s =
      match runHostStep h (withProgram rest s) with
      | .nothing => .next s
      | .operation sel s' => runSelector sel s'
      | .hostStep o => o := by
  cases hr : runHostStep h (withProgram rest s) <;> simp [step, nextIssue, hp, hr]

/-- An issued selector that goes on is that of an operation, and the operation goes on. -/
theorem runSelector_eq_next {sel : Sel} {s s' : State} (h : runSelector sel s = .next s') :
    ∃ i, decode sel = .ok i ∧ exec i s = .next s' := by
  unfold runSelector at h
  split at h
  · exact ⟨_, by assumption, h⟩
  · cases h

end Sys2Proof.Machine
end

