-- ==== Sys2Proof/Laws/Flow.lean ====
section
/-! SUPPORT. Runs of several steps, and what the reading part of the host's sequences does. -/

namespace Sys2Proof.Machine

/-- A run whose first step goes on is that step and the rest of the run. -/
theorem stepN_succ {n : Nat} {s t : State} (h : step s = .next t) : stepN (n + 1) s = stepN n t := by
  simp [stepN, h]

/-- Two runs one after the other are one run. -/
theorem stepN_add {n m : Nat} {s t : State} (h : stepN n s = .next t) : stepN (n + m) s = stepN m t := by
  induction n generalizing s with
  | zero => cases h; simp
  | succ n ih =>
    rw [Nat.succ_add]
    simp only [stepN] at h ⊢
    cases hs : step s <;> simp only [hs] at h ⊢ <;> first | exact ih h | cases h

/-- The state after the reading part of a sequence whose read completed. -/
def afterReading (b0 b1 : Byte) (program : List HostStep) (s : State) : State :=
  { s with
    program := program
    sel := encode .decode
    decB0 := b0
    decB1 := b1
    decOk := true
    dec := some (decReading (sensorWord b0 b1))
    host := { s.host with
      readingReady := true
      readError := false
      lastRead := some { device := Config.sensorAddr, reg := tempReg, count := 2 } } }

/-- The state after the reading part of a sequence whose read failed. -/
def afterFailedReading (program : List HostStep) (s : State) : State :=
  { s with
    program := program
    sel := encode .decode
    decOk := false
    dec := some decNoReading
    host := { s.host with
      readingReady := true
      readError := true
      lastRead := some { device := Config.sensorAddr, reg := tempReg, count := 2 } } }

/-- With DEC's result a reading of this tick, that is what the host reads. -/
theorem readCelsius_of_decReading {s : State} {w : BitVec 16} (h : s.dec = some (decReading w))
    (hr : s.host.readingReady = true) : readCelsius s = .ok (some (decReading w).celsius) :=
  readCelsius_eq_some.2 ⟨_, readResult_eq_ok.2 ⟨h, show statusCode .ok ≠ statusNeverDriven by decide⟩, hr, rfl, rfl⟩

/-- A completed read leaves DECODE's reading, and what uses it comes next. -/
theorem stepN_readingSteps_completed {s : State} {b0 b1 : Byte} {use rest : List HostStep}
    (hp : s.program = readingSteps (some (b0, b1)) use ++ rest) :
    stepN 3 s = .next (afterReading b0 b1 (use ++ rest) s) := by
  have h₁ : step s = .next (presentSensor b0 b1 true (withHost (putRead tempReg 2 s.host) (withProgram
      (.operation (encode .decode) :: .skipUnlessReading use.length :: use ++ rest) s))) := by
    rw [step_of_cons hp]; rfl
  have h₂ : step (presentSensor b0 b1 true (withHost (putRead tempReg 2 s.host) (withProgram
      (.operation (encode .decode) :: .skipUnlessReading use.length :: use ++ rest) s))) =
      .next (afterReading b0 b1 (.skipUnlessReading use.length :: use ++ rest) s) := by
    rw [step_of_cons (h := .operation (encode .decode)) (rest := .skipUnlessReading use.length :: use ++ rest) rfl]
    rfl
  rw [stepN_succ h₁, stepN_succ h₂]
  refine stepN_succ (n := 0) ?_
  rw [step_of_cons (h := .skipUnlessReading use.length) (rest := use ++ rest) rfl]
  simp only [runHostStep, skipUnlessReading]
  rw [readCelsius_of_decReading (w := sensorWord b0 b1) rfl rfl]
  rfl

/-- A failed read leaves the read error, and what would use the reading is skipped. -/
theorem stepN_readingSteps_failed {s : State} {use rest : List HostStep}
    (hp : s.program = readingSteps none use ++ rest) : stepN 3 s = .next (afterFailedReading rest s) := by
  have h₁ : step s = .next (presentFailedRead (withHost (putRead tempReg 2 s.host) (withProgram
      (.operation (encode .decode) :: .skipUnlessReading use.length :: use ++ rest) s))) := by
    rw [step_of_cons hp]; rfl
  have h₂ : step (presentFailedRead (withHost (putRead tempReg 2 s.host) (withProgram
      (.operation (encode .decode) :: .skipUnlessReading use.length :: use ++ rest) s))) =
      .next { afterFailedReading (.skipUnlessReading use.length :: use ++ rest) s with
        host := { (afterFailedReading rest s).host with readError := false } } := by
    rw [step_of_cons (h := .operation (encode .decode)) (rest := .skipUnlessReading use.length :: use ++ rest) rfl]
    rfl
  rw [stepN_succ h₁, stepN_succ h₂]
  refine stepN_succ (n := 0) ?_
  rw [step_of_cons (h := .skipUnlessReading use.length) (rest := use ++ rest) rfl]
  show Host.Outcome.next (withProgram (List.drop use.length (use ++ rest)) _) = _
  rw [List.drop_left]
  rfl

/-- The host's display write shows every output of ENC at its positions. -/
theorem displayShows_of_eq_displayed {h : HostState} {o : EncOut} {old : Vector SegPattern 9}
    (hd : h.display = displayed o old) : DisplayShows h o := by
  intro p
  rw [hd]
  refine ⟨?_, ?_, ?_⟩ <;> intros <;> simp_all [displayed, glyphPattern]

end Sys2Proof.Machine
end

