-- ==== Sys2Proof/Laws/PerInstr.lean ====
section
/-! SUPPORT. A family of statements with one lemma for each operation: its selector matches its own row of the opcode
table (30_encoding.md R59). -/

namespace Sys2Proof.Laws

/-- The mask and match of an operation's row in the opcode table. -/
def tableRow : Instr → Sel × Sel
  | .decode => (0xF, 0x0)
  | .encPlain _ => (0xD, 0x4)
  | .encDiff _ => (0xD, 0x5)
  | .segLut => (0xF, 0x8)
  | .pwmMap => (0xF, 0xC)

/-- The operation's selector matches its row, and every selector that matches the row decodes to an operation of it. -/
def SelectorRow.Statement (i : Instr) : Prop :=
  encode i &&& (tableRow i).1 = (tableRow i).2 ∧
    ∀ sel : Sel, sel &&& (tableRow i).1 = (tableRow i).2 →
      ∃ j, decode sel = .ok j ∧ tableRow j = tableRow i

theorem SelectorRow.decode : SelectorRow.Statement .decode := by
  refine ⟨by decide, fun sel h => ⟨.decode, ?_, rfl⟩⟩
  revert sel; decide

theorem SelectorRow.encPlain (u : TempUnit) : SelectorRow.Statement (.encPlain u) := by
  refine ⟨by cases u <;> decide, fun sel h => ⟨.encPlain (unitField sel), ?_, rfl⟩⟩
  simp only [tableRow] at h
  revert sel; decide

theorem SelectorRow.encDiff (u : TempUnit) : SelectorRow.Statement (.encDiff u) := by
  refine ⟨by cases u <;> decide, fun sel h => ⟨.encDiff (unitField sel), ?_, rfl⟩⟩
  simp only [tableRow] at h
  revert sel; decide

theorem SelectorRow.segLut : SelectorRow.Statement .segLut := by
  refine ⟨by decide, fun sel h => ⟨.segLut, ?_, rfl⟩⟩
  revert sel; decide

theorem SelectorRow.pwmMap : SelectorRow.Statement .pwmMap := by
  refine ⟨by decide, fun sel h => ⟨.pwmMap, ?_, rfl⟩⟩
  revert sel; decide

end Sys2Proof.Laws
end

