-- ==== Sys2Proof/Laws/Segments.lean ====
section
/-! SUPPORT. What the segment table gives (30_encoding.md R55). -/

namespace Sys2Proof.Machine

/-- An index below 13 gives its entry of P_SEG_LUT. -/
theorem lut_entry (cfg : Config) {g : GlyphIndex} (h : g.toNat < 13) : lut cfg g = some cfg.segLut[g.toNat] := by
  simp [lut, h]

/-- Index 13 is blank, whatever the configuration. -/
theorem lut_blank (cfg : Config) : lut cfg 13 = some 0xFF := by
  simp [lut, glyphBlank, blankPattern]

/-- An index from 14 on gives what P_MODE_LETTERS assigns it. -/
theorem lut_letter (cfg : Config) {g : GlyphIndex} {k : Fin 18} (h : g.toNat = 14 + k.val) :
    lut cfg g = cfg.modeLetters[k.val] := by
  have h1 : ¬ g.toNat < 13 := by omega
  have h2 : g ≠ glyphBlank := by
    rintro rfl; simp [glyphBlank] at h; omega
  have h3 : g.toNat - 14 = k.val := by omega
  simp only [lut, h1, h2, h3, dif_neg, if_neg, not_false_eq_true]

/-- ENC's own glyphs, the indices up to 13, are all defined, and `drawn` is their pattern. -/
theorem lut_eq_drawn (cfg : Config) {g : GlyphIndex} (h : g.toNat ≤ 13) : lut cfg g = some (drawn cfg g) := by
  rcases Nat.lt_or_ge g.toNat 13 with h1 | h1
  · simp [drawn, lut_entry cfg h1]
  · have : g = 13 := BitVec.eq_of_toNat_eq (by simp; omega)
    subst this
    rw [drawn, lut_blank cfg]; rfl

end Sys2Proof.Machine
end

