-- ==== Sys2Proof/Tests/Slice0.lean ====
section
/-! SUPPORT. Tests: words written out from the encodings of the spec, ill-formed terms, one or two operations of each
kind with the results that 95_test_vectors.md gives, and a witness for the hypotheses of every statement that has
some. -/

namespace Sys2Proof.Tests

open Sys2Proof.Machine

/-! ### Selector words, written out bit by bit from R59 -/

theorem test_decode_word : decode 0b0000 = .ok .decode := by decide
theorem test_encPlainC_word : decode 0b0100 = .ok (.encPlain .celsius) := by decide
theorem test_encPlainF_word : decode 0b0110 = .ok (.encPlain .fahrenheit) := by decide
theorem test_encDiffC_word : decode 0b0101 = .ok (.encDiff .celsius) := by decide
theorem test_encDiffF_word : decode 0b0111 = .ok (.encDiff .fahrenheit) := by decide
theorem test_segLut_word : decode 0b1000 = .ok .segLut := by decide
theorem test_pwmMap_word : decode 0b1100 = .ok .pwmMap := by decide
theorem test_reserved_word : decode 0b1111 = .error (.selReserved 0b1111) := by decide
theorem test_word_beyond_selector : decodeTableWord 8 0b10000 = none := by decide

/-- Program P4 of 95_test_vectors.md, step 5: the encoding of `DECODE 0xFF, 0x60, 0`. -/
theorem test_operation_words : encodeOperation (.decode 0xFF 0x60 false) = [0b0000, 0xFF, 0x60, 0] := by decide
theorem test_operand_too_wide : decodeProgram [0b1000, 32] = .error (.tooWide 5 32) := by decide
theorem test_operand_missing : decodeProgram [0b1100] = .error .missingOperand := by decide

/-! ### Well-formedness: each check refuses an ill-formed term -/

theorem test_wf_sensor_register : (HostStep.memRead 0x01 2 none).wellFormed = false := by decide
theorem test_wf_sensor_length : (HostStep.memRead 0x00 1 none).wellFormed = false := by decide
theorem test_wf_sensor_reply : (HostStep.memRead 0x00 2 (some [0x0C])).wellFormed = false := by decide
theorem test_wf_sensor_read : (HostStep.memRead 0x00 2 (some [0x0C, 0x80])).wellFormed = true := by decide
theorem test_wf_segment_bits :
    Config.wellFormed { defaultConfig with segBits := #v[0, 0, 2, 3, 4, 5, 6, 7] } = false := by decide
theorem test_wf_default_config : Config.wellFormed defaultConfig = true := by decide

/-! ### One step of each operation (95_test_vectors.md) -/

/-- The result that a check finds in a next state. -/
def after (o : Host.Outcome State Fault Refusal) (p : State → Bool) : Bool :=
  match o with
  | .next s => p s
  | _ => false

/-- E3: bytes 0x81, 0x00 are −254.0 °C. -/
theorem test_decode_negative :
    after (exec .decode { State.reset with decB0 := 0x81, decB1 := 0x00, decOk := true })
      (fun s => s.dec == some ⟨true, 0x1020, true, 0xC37E0000, 0⟩) = true := by decide

/-- DEC-17: the bytes are not used after a failed read. -/
theorem test_decode_failed_read :
    after (exec .decode { State.reset with decB0 := 0x81, decB1 := 0x00, decOk := false })
      (fun s => s.dec == some ⟨false, 0, false, 0, 1⟩) = true := by decide

/-- ENC-P9: the plain path truncates the scaled 0.251. -/
theorem test_encPlain_truncates :
    after (exec (.encPlain .celsius) { State.reset with encV := 0x3E808312 })
      (fun s => s.enc == some ⟨#v[0, 0, 2, 5, 0], #v[0xC0, 0xC0, 0xA4, 0x92, 0xC0], 0xC6, 0xFF, 0b00010,
        false, false, false, false, 0⟩) = true := by decide

/-- ENC-P17: −256.0 overflows and shows a sign. -/
theorem test_encPlain_overflow :
    after (exec (.encPlain .celsius) { State.reset with encV := 0xC3800000 })
      (fun s => s.enc == some ⟨#v[5, 6, 0, 0, 0], #v[0x92, 0x82, 0xC0, 0xC0, 0xC0], 0xC6, 0xBF, 0b00010,
        true, false, true, false, 3⟩) = true := by decide

/-- ENC-D1 (E4): −0.475 rounds to 475 thousandths, with the tens position blanked. -/
theorem test_encDiff_example :
    after (exec (.encDiff .celsius) { State.reset with encV := 0xBEF33333 })
      (fun s => s.enc == some ⟨#v[0, 0, 4, 7, 5], #v[0xFF, 0xC0, 0x99, 0xF8, 0x92], 0xC6, 0xBF, 0b00010,
        true, true, false, false, 0⟩) = true := by decide

/-- ENC-D9: the one value whose biased sum rounds up to 1.0. -/
theorem test_encDiff_rounding_exception :
    after (exec (.encDiff .celsius) { State.reset with encV := 0x3A03126E })
      (fun s => s.enc.map (fun o => o.d) == some #v[0, 0, 0, 0, 1]) = true := by decide

/-- LUT-12: F under the default table. -/
theorem test_segLut_letter :
    after (exec .segLut { State.reset with lutG := 11 }) (fun s => s.lut == some ⟨0x8E, 0⟩) = true := by decide

/-- LUT-15: index 14 is refused while no letter is assigned. -/
theorem test_segLut_reserved :
    (match exec .segLut { State.reset with lutG := 14 } with
      | .refused r => r == .lutReserved 14
      | _ => false) = true := by decide

/-- PWM-6: −0.0 is zero. -/
theorem test_pwmMap_negative_zero :
    after (exec .pwmMap { State.reset with pwmD := 0x80000000 }) (fun s => s.pwm == some ⟨0, 1, 0, false, 0⟩) = true := by
  decide

/-- PWM-8: the negative of the least subnormal lights channel 0. -/
theorem test_pwmMap_least_negative :
    after (exec .pwmMap { State.reset with pwmD := 0x80000001 })
      (fun s => s.pwm == some ⟨1023, 0, 0, false, 0⟩) = true := by decide

/-! ### The host's interface: a table word runs as the first operation after reset -/

theorem test_fetch_word_runs :
    after (step (State.reset.withFetchWord 8 0b1100)) (fun s => s.pwm == some ⟨0, 1, 0, false, 0⟩ && s.sel == 12) =
      true := by decide

/-! ### Witnesses: for each statement with hypotheses, a state and operands that meet them -/

/-- A state after reset with a program placed. -/
def running (p : List HostStep) : State := { State.reset with program := p }

theorem witness_ProgramDecodingUnambiguous : decodeProgram [0b1000, 31] = .ok [.segLut 31] := by decide

theorem witness_RoundsToNearestEven :
    (2 ^ 25 - 1) * 2 ^ 252 ≤ (((2 ^ 25 - 1) * 2 ^ 252 : Nat) : Int).natAbs ∧
      (((2 ^ 25 - 1) * 2 ^ 252 - 1 : Nat) : Int).natAbs < (2 ^ 25 - 1) * 2 ^ 252 ∧ isFinite 0x7F7FFFFF = true := by
  decide

theorem witness_ComparisonsAreIeee :
    isFinite 0x80000000 = true ∧ isFinite 0x7F7FFFFF = true ∧ isNaN 0x7FC00000 = true ∧ isInf 0x7F800000 = true ∧
      isInf 0xFF800000 = true := by decide

theorem witness_DecodeReadsSensorWord :
    ({ State.reset with decOk := true } : State).decOk = true ∧ State.reset.decOk = false := by decide

theorem witness_ReadingIsExactAndSigned : ({ State.reset with decOk := true } : State).decOk = true := by decide

theorem witness_LowBitsIgnored :
    ({ State.reset with decB1 := 0x08, decOk := true } : State).decOk = true ∧ (0x07 : Byte).toNat < 8 ∧
      ({ State.reset with decB1 := 0x0F, decOk := true } : State).decB1 = ((0x08 : Byte) &&& 0xF8) ||| 0x07 := by decide

theorem witness_EncPlainTruncates :
    isFinite 0x41C80000 = true ∧ isFinite (fl ((fltUnits (fltAbs 0x41C80000) * 1000 : Nat) : Int)) = true ∧
      isFinite 0x7A83126E = true ∧ isFinite (fl ((fltUnits (fltAbs 0x7A83126E) * 1000 : Nat) : Int)) = true ∧
      isFinite (fl ((fltUnits (fltAbs 0x7A83126F) * 1000 : Nat) : Int)) = false ∧ isFinite 0x7FC00000 = false := by decide

theorem witness_EncDiffRoundsAndBlanks :
    isFinite 0xBEF33333 = true ∧ isFinite (fl ((fltUnits (fltAbs 0xBEF33333) * 1000 : Nat) : Int)) = true ∧
      isFinite 0xFF800000 = false := by decide

theorem witness_DigitsWeighScaledInteger : encodable ({ State.reset with encV := 0x42C80000 } : State).encV = true := by
  decide

theorem witness_BiasRoundsDownExceptOnce :
    (fltSign 0x3EFFFFFF = false ∧ isFinite 0x3EFFFFFF = true ∧ fltUnits 0x3EFFFFFF < 2 ^ 23 * 2 ^ 149) ∧
      (fltSign 0x4AFFFFFF = false ∧ isFinite 0x4AFFFFFF = true ∧ fltUnits 0x4AFFFFFF < 2 ^ 23 * 2 ^ 149) := by decide

theorem witness_ReadingsScaleExactly : (-4096 : Int) ≤ -4096 ∧ (-4096 : Int) ≤ 4095 ∧ (-4096 : Int) ≤ 4095 := by decide

theorem witness_SignShownOnBothPaths :
    encodable 0xBF800000 = true ∧ (encOutput defaultConfig .plain 0xBF800000 .celsius).neg = true ∧
      encodable 0x80000000 = true ∧ (encOutput defaultConfig .plain 0x80000000 .celsius).neg = false ∧
      encodable 0x7A83126F = false := by decide

/-- The default configuration with index 14 assigned a letter. -/
def letterConfig : Config := { defaultConfig with modeLetters := defaultConfig.modeLetters.set 0 (some 0xC7) }

theorem witness_SegLutLooksUpOrRefuses :
    ({ State.reset with lutG := 12 } : State).lutG.toNat < 13 ∧ ({ State.reset with lutG := 13 } : State).lutG = 13 ∧
      ({ State.reset with config := letterConfig, lutG := 14 } : State).lutG.toNat = 14 + (0 : Fin 18).val ∧
      ({ State.reset with config := letterConfig, lutG := 14 } : State).config.modeLetters[0] = some 0xC7 ∧
      ({ State.reset with lutG := 31 } : State).lutG.toNat = 14 + (17 : Fin 18).val ∧
      State.reset.config.modeLetters[17] = none := by decide

theorem witness_EncAndSegLutAgree :
    (encOutput defaultConfig .difference 0xC1C80000 .celsius).neg = true ∧
      (encOutput defaultConfig .difference 0xC1C80000 .celsius).inv = false ∧
      (encOutput defaultConfig .difference 0xC1C80000 .celsius).blank = false := by decide

theorem witness_PwmMapsSign :
    isNaN 0x7FC00000 = true ∧ fltLt 0x80000001 0x00000000 = true ∧ fltEq 0x80000000 0x00000000 = true ∧
      fltLt 0x00000000 0x00000001 = true := by decide

theorem witness_PwmHasNoDeadBand :
    (0x00000001 : Flt).toNat ≤ 0x7F800000 ∧ 0x00000001 ≤ (0x7F800000 : Flt).toNat ∧
      0x80000001 ≤ (0x80000001 : Flt).toNat ∧ (0xFF800000 : Flt).toNat ≤ 0xFF800000 := by decide

theorem witness_OneChannelForEveryNumber : isNaN State.reset.pwmD = false := by decide

theorem witness_OutputsDependOnInputsAlone :
    SameOperands .pwmMap State.reset { State.reset with encV := 0x3F800000 } ∧
      exec .pwmMap State.reset = .next (drivePwm (pwmOutput 0) State.reset) ∧
      SameOperands .segLut { State.reset with lutG := 31 } { State.reset with lutG := 31, decOk := true } ∧
      exec .segLut { State.reset with lutG := 31 } = .refused (.lutReserved 31) := ⟨⟨rfl, rfl⟩, rfl, ⟨rfl, rfl⟩, rfl⟩

theorem witness_NoOperationTraps :
    exec .segLut { State.reset with lutG := 14 } = .refused (.lutReserved 14) ∧
      exec .segLut State.reset = .next (driveLut (lutOutput 0xC0) State.reset) := ⟨rfl, rfl⟩

theorem witness_OperationsOfUnitsCommute :
    unitOf .decode ≠ unitOf .pwmMap ∧
      exec .decode State.reset = .next (driveDec decNoReading State.reset) ∧
      exec .pwmMap (driveDec decNoReading State.reset) =
        .next (drivePwm (pwmOutput 0) (driveDec decNoReading State.reset)) := ⟨by decide, rfl, rfl⟩

theorem witness_LastOperationOfUnitWins :
    unitOf (.encPlain .celsius) = unitOf (.encDiff .fahrenheit) ∧
      exec (.encPlain .celsius) State.reset = .next (runEncoder .plain .celsius State.reset) := ⟨rfl, rfl⟩

theorem witness_OperationFrame : exec .decode State.reset = .next (driveDec decNoReading State.reset) := rfl

theorem witness_StepRunsDecodedOperation :
    (running [.operation 0b1100]).program = .operation 0b1100 :: [] ∧ decode 0b1100 = .ok .pwmMap := by decide

theorem witness_ReservedSelectorStopsRun :
    (running [.operation 0b1111]).program = .operation 0b1111 :: [] ∧
      (0b1111 : Sel) ∈
        ([0b0001, 0b0010, 0b0011, 0b1001, 0b1010, 0b1011, 0b1101, 0b1110, 0b1111] : List Sel) := by decide

theorem witness_ConfigurationNeverWritten :
    step (running [.presentGlyph 5]) = .next (presentGlyph 5 (running [])) := rfl

theorem witness_ProgramOrder :
    step (running [.presentGlyph 5, .passBaseline]) = .next (presentGlyph 5 (running [.passBaseline])) ∧
      (running [.presentGlyph 5, .passBaseline]).program = .presentGlyph 5 :: [.passBaseline] ∧
      step (running []) = .next (running []) ∧ (running []).program = [] ∧
      step (running [.tick none .celsius, .passBaseline]) = .next (running [.passBaseline]) := ⟨rfl, rfl, rfl, rfl, rfl⟩

theorem witness_StepKeepsLegal :
    Legal (running [.operation 0b1000]) ∧
      step (running [.operation 0b1000]) =
        .next (driveLut (lutOutput 0xC0) (presentSel 0b1000 (running []))) :=
  ⟨⟨nofun, nofun, nofun, nofun, ⟨nofun, .inl rfl⟩, nofun⟩, rfl⟩

/-- A state in a mode of the host, in or outside the show-difference sub-loop, with a program placed. -/
def hostIn (m : Mode) (d : Bool) (p : List HostStep) : State :=
  { running p with host := { State.reset.host with mode := m, inDifference := d } }

theorem witness_UndrivenResultFaults :
    (running [.skipUnlessReading 1]).dec = none ∧
      (running [.skipUnlessReading 1]).program = .skipUnlessReading 1 :: [] ∧
      (running [.passCelsius]).dec = none ∧ (running [.passCelsius]).program = .passCelsius :: [] ∧
      (running [.passFahrenheit]).dec = none ∧ (running [.passFahrenheit]).program = .passFahrenheit :: [] ∧
      (running [.takeSample]).dec = none ∧ (running [.takeSample]).program = .takeSample :: [] ∧
      (hostIn .calibrate true [.passDifference]).dec = none ∧
      (hostIn .calibrate true [.passDifference]).program = .passDifference :: [] ∧
      (hostIn .calibrate true [.passDifference]).host.inDifference = true ∧
      (running [.writeDisplay]).enc = none ∧ (running [.writeDisplay]).program = .writeDisplay :: [] ∧
      (running [.writeGlyph 8]).lut = none ∧ (running [.writeGlyph 8]).program = .writeGlyph 8 :: [] ∧
      (running [.writeDuties]).pwm = none ∧ (running [.writeDuties]).program = .writeDuties :: [] := by decide

theorem witness_FailedReadGivesNoReading :
    (running [.memRead 0x00 2 none, .operation 0b0000, .passCelsius]).program =
      .memRead 0x00 2 none :: .operation 0b0000 :: .passCelsius :: [] := by decide

theorem witness_CompletedReadPresentsBytes :
    (running [.memRead 0x00 2 (some [0x0C, 0x80])]).program = .memRead 0x00 2 (some [0x0C, 0x80]) :: [] := by decide

theorem witness_OtherSensorReadsRefused :
    (running [.memRead 0x00 1 none]).program = .memRead 0x00 1 none :: [] ∧
      ¬((0x00 : Byte) = 0x00 ∧ 1 = 2) ∧ ¬((0x00 : Byte) = 0x0B ∧ 1 = 1) := by decide

theorem witness_IdentityReadChangesNothing :
    (running [.memRead 0x0B 1 (some [0xCB])]).program = .memRead 0x0B 1 (some [0xCB]) :: [] := by decide

theorem witness_IdleEntryClearsHost :
    (hostIn .live false [.button 1]).program = .button 1 :: [] ∧
      (hostIn .live false [.button 1]).host.inDifference = false ∧
      (hostIn .live false [.button 1]).host.mode ≠ .idle := by decide

theorem witness_LeavingDifferenceForcesChannelsOff :
    (hostIn .calibrate true [.button 16]).program = .button 16 :: [] ∧ (16 = 1 ∨ 16 = 16) ∧
      (hostIn .calibrate true [.button 16]).host.inDifference = true := by decide

theorem witness_UnrecognisedButtonIsNoOp :
    (running [.button 3]).program = .button 3 :: [] ∧ 3 ∉ [1, 2, 4, 8, 16] := by decide

theorem witness_DutyWriteReachesItsChannel :
    ({ running [.writeDuties] with pwm := some (pwmOutput 0) } : State).program = .writeDuties :: [] ∧
      ({ running [.writeDuties] with pwm := some (pwmOutput 0) } : State).pwm = some (pwmOutput 0) ∧
      (pwmOutput 0).status ≠ 7 := by decide

theorem witness_DisplayWriteFollowsLayout :
    ({ running [.writeDisplay] with enc := some (encInvalid defaultConfig .celsius) } : State).program =
        .writeDisplay :: [] ∧
      ({ running [.writeDisplay] with enc := some (encInvalid defaultConfig .celsius) } : State).enc =
        some (encInvalid defaultConfig .celsius) ∧
      (encInvalid defaultConfig .celsius).status ≠ 7 := by decide

/-- A state in Calibrate with 30 readings taken. -/
def averaged : State :=
  { running [.setBaseline] with
    host := { State.reset.host with mode := .calibrate, samples := List.replicate 30 0x41B40000 } }

theorem witness_BaselineIsMeanOfThirtyReadings :
    averaged.program = .setBaseline :: [] ∧ averaged.host.mode = .calibrate ∧ averaged.host.inDifference = false ∧
      averaged.host.samples.length = 30 ∧ (running [.setBaseline]).program = .setBaseline :: [] ∧
      (running [.setBaseline]).host.samples.length ≠ 30 ∧
      (hostIn .calibrate true [.setBaseline]).program = .setBaseline :: [] ∧
      (hostIn .calibrate true [.setBaseline]).host.inDifference = true := by decide

/-- A state in Live with a Baseline and the Idle code observed. -/
def liveWithBaseline : State :=
  { running [.button 1] with host := { State.reset.host with mode := .live, baseline := 0x41B40000 } }

theorem witness_BaselineSetOnlyByCalibrationOrIdle :
    step liveWithBaseline = .next { running [] with
      host := { State.reset.host with
        display := Vector.ofFn (Config.clearedPattern 1)
        dpMask := Config.clearedMask 1
        duty := dutiesOff }
      draws := 2 } ∧
      (0x00000000 : Flt) ≠ liveWithBaseline.host.baseline := ⟨rfl, by decide⟩

theorem witness_IdleLeftOnLiveOrCalibrate :
    (running [.button 16]).program = .button 16 :: [] ∧ (running [.button 16]).host.mode = .idle ∧
      (running [.button 16]).host.inDifference = false := by decide

theorem witness_ReadingIsDisplayedFaithfully :
    (hostIn .live false [.tick (some (0x31, 0xF8)) .celsius]).program = .tick (some (0x31, 0xF8)) .celsius :: [] ∧
      (hostIn .live false [.tick (some (0x31, 0xF8)) .celsius]).host.mode = .live ∧
      (readingOf 0x31 0xF8).natAbs < 1600 ∧ (readingOf 0xCE 0x08).natAbs < 1600 := by decide

theorem witness_LeavingLiveClearsDisplay :
    (hostIn .live false [.button 4]).program = .button 4 :: [] ∧
      (hostIn .live false [.button 4]).host.inDifference = false ∧
      (hostIn .live false [.button 4]).host.mode = .live := by decide

theorem witness_DifferenceEnteredOnlyInCalibrate :
    (hostIn .calibrate false [.button 8]).program = .button 8 :: [] ∧
      (hostIn .calibrate false [.button 8]).host.inDifference = false ∧
      (hostIn .calibrate false [.button 8]).host.mode = .calibrate ∧
      (hostIn .live false [.button 8]).program = .button 8 :: [] ∧
      (hostIn .live false [.button 8]).host.mode ≠ .calibrate := by decide

theorem witness_GlyphWriteReachesItsPosition :
    ({ running [.writeGlyph 8] with lut := some (lutOutput 0xC0) } : State).program = .writeGlyph 8 :: [] ∧
      ({ running [.writeGlyph 8] with lut := some (lutOutput 0xC0) } : State).lut = some (lutOutput 0xC0) ∧
      (lutOutput 0xC0).status ≠ 7 := by decide

theorem witness_PresentedOperandsReachPorts :
    (running [.presentSensor 0x0C 0x80 true]).program = .presentSensor 0x0C 0x80 true :: [] ∧
      (running [.presentValue 0x7FC00000]).program = .presentValue 0x7FC00000 :: [] ∧
      (running [.presentGlyph 31]).program = .presentGlyph 31 :: [] ∧
      (running [.presentDifference 0x80000000]).program = .presentDifference 0x80000000 :: [] ∧
      (running [.passBaseline]).program = .passBaseline :: [] := by decide

/-- A state of the show-difference sub-loop with DEC's result, of this tick or of an earlier one, and a program placed. -/
def decoded (o : DecOut) (ready : Bool) (p : List HostStep) : State :=
  { hostIn .calibrate true p with
    dec := some o, host := { (hostIn .calibrate true p).host with readingReady := ready } }

theorem witness_ReadingReachesItsUse :
    HasReading (decoded (decReading 0x0B80) true [.passDifference]) 0x41B80000 ∧
      (decoded (decReading 0x0B80) true [.passDifference]).program = .passDifference :: [] ∧
      (decoded (decReading 0x0B80) true [.passDifference]).host.inDifference = true ∧
      HasReading (decoded (decReading 0x0B80) true [.skipUnlessReading 2]) 0x41B80000 ∧
      HasReading (decoded (decReading 0x0B80) true [.takeSample]) 0x41B80000 :=
  ⟨⟨_, rfl, by decide, rfl, rfl, by decide⟩, rfl, rfl, ⟨_, rfl, by decide, rfl, rfl, by decide⟩,
    ⟨_, rfl, by decide, rfl, rfl, by decide⟩⟩

/-- Both ways to have no reading: a failed read, and a result of an earlier tick. -/
theorem witness_NoReadingSurfacesError :
    HasNoReading (decoded decNoReading true [.takeSample]) ∧
      (decoded decNoReading true [.takeSample]).program = .takeSample :: [] ∧
      HasNoReading (decoded (decReading 0x0B80) false [.passDifference]) ∧
      (decoded (decReading 0x0B80) false [.passDifference]).program = .passDifference :: [] ∧
      HasNoReading (decoded (decReading 0x0B80) false [.skipUnlessReading 1]) :=
  ⟨⟨_, rfl, by decide, .inr rfl⟩, rfl, ⟨_, rfl, by decide, .inl rfl⟩, rfl, ⟨_, rfl, by decide, .inl rfl⟩⟩

theorem witness_TicksFollowTable :
    (hostIn .live false [.tick (some (0x0C, 0x80)) .fahrenheit]).program =
        .tick (some (0x0C, 0x80)) .fahrenheit :: [] ∧
      (hostIn .live false [.tick (some (0x0C, 0x80)) .fahrenheit]).host.mode = .live ∧
      (hostIn .calibrate true [.tick (some (0x0B, 0x80)) .celsius]).program =
        .tick (some (0x0B, 0x80)) .celsius :: [] ∧
      (hostIn .calibrate true [.tick (some (0x0B, 0x80)) .celsius]).host.mode = .calibrate ∧
      (hostIn .calibrate true [.tick (some (0x0B, 0x80)) .celsius]).host.inDifference = true ∧
      (hostIn .calibrate false [.tick none .celsius]).program = .tick none .celsius :: [] ∧
      (hostIn .calibrate false [.tick none .celsius]).host.inDifference = false := by decide

theorem witness_BaselineActionFollowsTable :
    (hostIn .calibrate false [.baselineAction (Vector.replicate 30 (some (0x0B, 0x80)))]).program =
        .baselineAction (Vector.replicate 30 (some (0x0B, 0x80))) :: [] ∧
      (hostIn .calibrate false [.baselineAction (Vector.replicate 30 (some (0x0B, 0x80)))]).host.mode = .calibrate ∧
      Vector.replicate 30 (some ((0x0B, 0x80) : Byte × Byte)) =
        (Vector.replicate 30 ((0x0B, 0x80) : Byte × Byte)).map some ∧
      (Vector.replicate 30 (none : Option (Byte × Byte)))[29] = none ∧
      (running [.baselineAction (Vector.replicate 30 none)]).host.mode ≠ .calibrate :=
  ⟨rfl, rfl, by simp, by simp, by decide⟩

/-! ### The host's sequences (95_test_vectors.md section 3) -/

/-- Program P4, steps 4 to 6: after a failed read the tick ends with the read error. -/
theorem test_failed_tick :
    after (stepN 4 (hostIn .live false [.tick none .celsius]))
      (fun s => s.host.readError && s.enc.isNone && s.program.isEmpty) = true := by decide

/-- R46: a failed read with no DECODE after it does not let an earlier reading through. -/
theorem test_stale_reading_not_passed :
    after (stepN 2 { decoded (decReading 0x0B80) true [.memRead 0x00 2 none, .passCelsius] with encV := 0x3F800000 })
      (fun s => s.encV == 0x3F800000 && s.host.readError) = true := by decide

end Sys2Proof.Tests
end

section
/-! R14: what a unit answers depends on the operation's operands and the configuration alone. -/

namespace Sys2Proof.Machine

/-! ### The result that driving a unit leaves -/

theorem sameResult_driveDec (o : DecOut) (s t : State) : SameResult .dec (driveDec o s) (driveDec o t) := rfl

theorem sameResult_driveEnc (o : EncOut) (s t : State) : SameResult .enc (driveEnc o s) (driveEnc o t) := rfl

theorem sameResult_driveLut (o : LutOut) (s t : State) : SameResult .lut (driveLut o s) (driveLut o t) := rfl

theorem sameResult_drivePwm (o : PwmOut) (s t : State) : SameResult .pwm (drivePwm o s) (drivePwm o t) := rfl

/-! ### What the operands and the configuration determine -/

theorem sensorOperand_eq_of_sameOperands {s t : State} (h : SameOperands .decode s t) :
    sensorOperand s = sensorOperand t := by
  obtain ⟨-, h0, h1, hok⟩ := h
  rw [sensorOperand, sensorOperand, h0, h1, hok]

/-- The counterpart of `exec_eq_next`: the one refusal is SEGLUT's, of an index without an entry (R99). -/
theorem exec_eq_refused {i : Instr} {s : State} {r : Refusal} (h : exec i s = .refused r) :
    i = .segLut ∧ lut s.config s.lutG = none ∧ r = .lutReserved s.lutG := by
  cases i with
  | decode => rw [exec_decode] at h; cases h
  | encPlain u => rw [exec_encPlain] at h; cases h
  | encDiff u => rw [exec_encDiff] at h; cases h
  | segLut =>
    cases hl : lut s.config s.lutG with
    | none => rw [exec_segLut_of_none hl] at h; cases h; exact ⟨rfl, rfl, rfl⟩
    | some seg => rw [exec_segLut_of_some hl] at h; cases h
  | pwmMap => rw [exec_pwmMap] at h; cases h

theorem exec_next_of_sameOperands {i : Instr} {s t s' : State} (hst : SameOperands i s t) (h : exec i s = .next s') :
    ∃ t', exec i t = .next t' ∧ SameResult (unitOf i) s' t' := by
  obtain ⟨rfl, rfl⟩ | ⟨u, rfl, rfl⟩ | ⟨u, rfl, rfl⟩ | ⟨seg, rfl, hseg, rfl⟩ | ⟨rfl, rfl⟩ := exec_eq_next h
  · rw [sensorOperand_eq_of_sameOperands hst]
    exact ⟨_, exec_decode t, sameResult_driveDec _ _ _⟩
  · obtain ⟨hcfg, hv⟩ := hst
    rw [hcfg, hv]
    exact ⟨_, exec_encPlain u t, sameResult_driveEnc _ _ _⟩
  · obtain ⟨hcfg, hv⟩ := hst
    rw [hcfg, hv]
    exact ⟨_, exec_encDiff u t, sameResult_driveEnc _ _ _⟩
  · obtain ⟨hcfg, hg⟩ := hst
    rw [hcfg, hg] at hseg
    exact ⟨_, exec_segLut_of_some hseg, sameResult_driveLut _ _ _⟩
  · obtain ⟨-, hd⟩ := hst
    rw [hd]
    exact ⟨_, exec_pwmMap t, sameResult_drivePwm _ _ _⟩

theorem exec_refused_of_sameOperands {i : Instr} {s t : State} {r : Refusal} (hst : SameOperands i s t)
    (h : exec i s = .refused r) : exec i t = .refused r := by
  obtain ⟨rfl, hnone, rfl⟩ := exec_eq_refused h
  obtain ⟨hcfg, hg⟩ := hst
  rw [hcfg, hg] at hnone
  rw [hg]
  exact exec_segLut_of_none hnone

/-- Settles O27: the operands and the configuration fix each of the answers that `exec_eq_next` and `exec_eq_refused`
list. -/
theorem outputsDependOnInputsAlone : Obligations.OutputsDependOnInputsAlone :=
  fun _ _ _ hst => ⟨fun _ h => exec_next_of_sameOperands hst h, fun _ h => exec_refused_of_sameOperands hst h⟩

end Sys2Proof.Machine
end

section
/-! R64: DECODE's selector, its outputs in whole-number arithmetic on the two sensor bytes, and its outputs after a
failed read. -/

namespace Sys2Proof.Machine

/-! ### The sensor word as a number -/

@[simp] theorem sensorWord_toNat (b0 b1 : Byte) : (sensorWord b0 b1).toNat = b0.toNat * 256 + b1.toNat := by
  rw [sensorWord, BitVec.toNat_append, ← Nat.shiftLeft_add_eq_or_of_lt b1.isLt, Nat.shiftLeft_eq]

theorem shiftedWord_eq_div (w : BitVec 16) : shiftedWord w = w.toNat / 8 := by
  rw [shiftedWord, BitVec.toNat_ushiftRight, Nat.shiftRight_eq_div_pow, shift]

/-- Bit 15 is the top bit, so it is set exactly in the upper half of the words. -/
theorem decNegFlag_eq_decide (w : BitVec 16) : decNegFlag w = decide (32768 ≤ w.toNat) :=
  BitVec.msb_eq_decide w

/-! ### DEC's outputs for two bytes -/

/-- The first byte holds the top bit: the second adds less than 256 to a multiple of 256. -/
theorem decNegFlag_sensorWord (b0 b1 : Byte) : decNegFlag (sensorWord b0 b1) = decide (b0.toNat ≥ 128) := by
  rw [decNegFlag_eq_decide, sensorWord_toNat, decide_eq_decide]
  have := b1.isLt
  omega

theorem sixteenths_sensorWord (b0 b1 : Byte) : sixteenths (sensorWord b0 b1) = readingOf b0 b1 := by
  simp only [sixteenths, readingOf, decNegFlag_eq_decide, shiftedWord_eq_div, sensorWord_toNat, decide_eq_true_eq,
    ge_iff_le, offset, Nat.cast_ofNat]

/-- A sixteenth of a degree is 2^145 of the units that `fl` counts in, of which 2^149 make one degree. -/
theorem celsiusOf_eq_fl (q : Int) : celsiusOf q = fl (q * 2 ^ 145) := by
  have hunits : ((unitsPerOne / divisor : Nat) : Int) = 2 ^ 145 := by decide
  rw [celsiusOf, hunits]

theorem decReading_sensorWord (b0 b1 : Byte) :
    decReading (sensorWord b0 b1) =
      { valid := true
        q4 := BitVec.ofInt 13 (readingOf b0 b1)
        neg := decide (b0.toNat ≥ 128)
        celsius := fl (readingOf b0 b1 * 2 ^ 145)
        status := 0 } := by
  rw [decReading, sixteenths_sensorWord, decNegFlag_sensorWord, celsiusOf_eq_fl]
  rfl

/-! ### DECODE on a completed and on a failed read -/

theorem exec_decode_of_decOk {s : State} (h : s.decOk = true) :
    exec .decode s = .next (driveDec (decReading (sensorWord s.decB0 s.decB1)) s) := by
  rw [exec_decode, sensorOperand, if_pos h, decOutput]

theorem exec_decode_of_not_decOk {s : State} (h : s.decOk = false) :
    exec .decode s = .next (driveDec decNoReading s) := by
  rw [exec_decode, sensorOperand, if_neg (ne_true_of_eq_false h), decOutput]

/-- The first row of R59's table compares all four bits of the selector, and no other row names DECODE. -/
theorem decode_eq_ok_decode_iff (sel : Sel) : decode sel = .ok .decode ↔ sel = 0b0000 := by
  revert sel; decide

/-- Settles O9: the selector by R59's table, a completed read by `decReading_sensorWord`, a failed one by the outputs
that R69 fixes. -/
theorem decodeReadsSensorWord : Obligations.DecodeReadsSensorWord := by
  refine ⟨decode_eq_ok_decode_iff, fun s => ⟨fun hok => ?completed, fun hfail => ?failed⟩⟩
  case completed =>
    rw [exec_decode_of_decOk hok, decReading_sensorWord]
    rfl
  case failed =>
    rw [exec_decode_of_not_decOk hfail]
    rfl

end Sys2Proof.Machine
end

section
/-! R71 to R82 and R86: what ENC shows of a value that it can render and of one that it cannot, on both paths; its
scaled integers, its sign, and the one table behind its glyphs. -/

namespace Sys2Proof.Machine

/-! ### Glyphs that ENC draws, as entries of the table -/

@[simp] theorem digitAt_toNat (m ten : Nat) : (digitAt m ten).toNat = m / ten % 10 := by
  rw [digitAt, BitVec.toNat_ofNat]
  omega

/-- A decimal digit is below 10, so its glyph index has an entry of P_SEG_LUT (R55, R77). -/
theorem lut_digitAt (cfg : Config) (m ten : Nat) :
    lut cfg ((digitAt m ten).setWidth 5) = some (digitSeg cfg (digitAt m ten)) := by
  refine lut_eq_drawn cfg ?_
  rw [BitVec.toNat_setWidth, digitAt_toNat]
  omega

/-- The glyph index of a unit's letter (R78). -/
def unitGlyph : TempUnit → GlyphIndex
  | .celsius => 10
  | .fahrenheit => 11

theorem lut_unitGlyph (cfg : Config) (u : TempUnit) : lut cfg (unitGlyph u) = some (unitSeg cfg u) := by
  cases u with
  | celsius => exact lut_eq_drawn cfg (by decide)
  | fahrenheit => exact lut_eq_drawn cfg (by decide)

theorem signSeg_spec (cfg : Config) (neg : Bool) :
    if neg then lut cfg 12 = some (signSeg cfg neg) else signSeg cfg neg = 0xFF := by
  cases neg with
  | true => exact lut_eq_drawn cfg (by decide)
  | false => rfl

/-! ### Digits and their patterns, position by position -/

theorem digits_getElem (m : Nat) (i : Fin 5) : (digits m)[i.val] = digitAt m (10 ^ (4 - i.val)) := by
  fin_cases i <;> rfl

/-- Only the tens position is ever blanked (R76). -/
theorem digitSegs_getElem_of_ne_zero (cfg : Config) (d : Vector (BitVec 4) 5) (blank : Bool) {i : Fin 5} (hi : i ≠ 0) :
    (digitSegs cfg d blank)[i.val] = digitSeg cfg d[i.val] := by
  match i, hi with
  | 1, _ | 2, _ | 3, _ | 4, _ => rfl

/-! ### The checks of a value, and the scaled integer of each path -/

theorem encodable_iff (v : Flt) :
    encodable v = true ↔
      isFinite v = true ∧ isFinite (fl ((fltUnits (fltAbs v) * 1000 : Nat) : Int)) = true :=
  Bool.and_eq_true_iff

theorem scaledInteger_plain (v : Flt) :
    scaledInteger .plain v = fltUnits (fl ((fltUnits (fltAbs v) * 1000 : Nat) : Int)) / 2 ^ 149 := rfl

/-- Half of one is 2^148 of the units that `fl` counts in. -/
theorem biased_eq_fl (p : Flt) : biased p = fl ((fltUnits p + 2 ^ 148 : Nat) : Int) := by
  have hhalf : unitsPerOne / 2 = 2 ^ 148 := by decide
  rw [biased, hhalf]

theorem scaledInteger_difference (v : Flt) :
    scaledInteger .difference v =
      fltUnits (fl ((fltUnits (fl ((fltUnits (fltAbs v) * 1000 : Nat) : Int)) + 2 ^ 148 : Nat) : Int)) / 2 ^ 149 := by
  rw [scaledInteger, biased_eq_fl]
  rfl

theorem encBlankFlag_plain (tens : BitVec 4) : encBlankFlag .plain tens = false := rfl

/-- The difference path blanks the tens position exactly when its digit is 0 (R76). -/
theorem encBlankFlag_difference (m : Nat) :
    encBlankFlag .difference (digitAt m 10000) = decide (m / 10000 % 10 = 0) := by
  have hzero : digitAt m 10000 = 0 ↔ m / 10000 % 10 = 0 := by
    rw [← BitVec.toNat_inj, digitAt_toNat]
    rfl
  rw [← decide_eq_decide.2 hzero]
  rfl

/-! ### What ENC shows -/

theorem shows_encRendered (cfg : Config) (path : EncPath) (u : TempUnit) (v : Flt) (m : Nat) :
    Shows cfg u v m (encBlankFlag path (digitAt m 10000)) (encRendered cfg path u (encNegFlag v) m) where
  digit i := by
    change (digits m)[i.val].toNat = _
    rw [digits_getElem, digitAt_toNat]
  tens_seg := by
    cases hb : encBlankFlag path (digitAt m 10000) with
    | true => simp [encRendered, digitSegs, hb, blankPattern]
    | false => simpa [encRendered, digitSegs, digits, hb] using lut_digitAt cfg m 10000
  digit_seg i hi := by
    change lut cfg ((digits m)[i.val].setWidth 5) = some (digitSegs cfg (digits m) _)[i.val]
    rw [digitSegs_getElem_of_ne_zero _ _ _ hi, digits_getElem]
    exact lut_digitAt cfg m _
  unit_seg := lut_unitGlyph cfg u
  sign_seg := signSeg_spec cfg (encNegFlag v)
  point := rfl
  neg_eq := rfl
  blank_eq := rfl
  ovf_eq := rfl
  inv_eq := rfl
  status_eq := by
    by_cases hovf : m > 99999 <;> simp [encRendered, encOvfFlag, maxFiveDigits, encStatus, statusCode, hovf]

theorem showsNothing_encInvalid (cfg : Config) (u : TempUnit) : ShowsNothing cfg u (encInvalid cfg u) where
  digits i := by simp [encInvalid, blankPattern]
  unit_seg := lut_unitGlyph cfg u
  sign_seg := rfl
  point := rfl
  flags := ⟨rfl, rfl, rfl, rfl⟩
  status_eq := rfl

theorem shows_encOutput (cfg : Config) (path : EncPath) (u : TempUnit) {v : Flt} (hv : encodable v = true) :
    Shows cfg u v (scaledInteger path v) (encBlankFlag path (digitAt (scaledInteger path v) 10000))
      (encOutput cfg path v u) := by
  rw [encOutput, if_pos hv]
  exact shows_encRendered cfg path u v _

theorem showsNothing_encOutput (cfg : Config) (path : EncPath) (u : TempUnit) {v : Flt} (hv : ¬encodable v = true) :
    ShowsNothing cfg u (encOutput cfg path v u) := by
  rw [encOutput, if_neg hv]
  exact showsNothing_encInvalid cfg u

/-! ### ENC's operations -/

/-- Both paths answer in every state, and change ENC's result and the two inputs that the selector drives alone. -/
theorem exec_encInstr (path : EncPath) (u : TempUnit) (s : State) :
    exec (encInstr path u) s =
      .next { s with encUnit := u, encPath := path, enc := some (encOutput s.config path s.encV u) } := by
  cases path with
  | plain => exact exec_encPlain u s
  | difference => exact exec_encDiff u s

/-- The mask 0xD of ENC's rows in R59's table leaves open only bit 1, which is the unit. -/
theorem decode_eq_ok_encInstr_iff (path : EncPath) (u : TempUnit) (sel : Sel) :
    decode sel = .ok (encInstr path u) ↔ sel = encode (encInstr path u) := by
  revert sel
  cases path <;> cases u <;> decide

/-- Settles O13: the plain path's scaled integer is `scaledInteger_plain`, and it never blanks. -/
theorem encPlainTruncates : Obligations.EncPlainTruncates := by
  refine ⟨decode_eq_ok_encInstr_iff .plain .celsius, decode_eq_ok_encInstr_iff .plain .fahrenheit, ?_⟩
  rintro u s _ rfl
  rw [← encodable_iff, ← scaledInteger_plain]
  refine ⟨fun hv => ⟨_, exec_encInstr .plain u s, ?_⟩, fun hv => ⟨_, exec_encInstr .plain u s, ?_⟩⟩
  · exact shows_encOutput s.config .plain u hv
  · exact showsNothing_encOutput s.config .plain u hv

/-- Settles O14: the difference path's scaled integer is `scaledInteger_difference`, and it blanks by
`encBlankFlag_difference`. -/
theorem encDiffRoundsAndBlanks : Obligations.EncDiffRoundsAndBlanks := by
  refine ⟨decode_eq_ok_encInstr_iff .difference .celsius, decode_eq_ok_encInstr_iff .difference .fahrenheit, ?_⟩
  rintro u s _ rfl
  rw [← encodable_iff, ← scaledInteger_difference]
  refine ⟨fun hv => ⟨_, _, rfl, exec_encInstr .difference u s, ?_⟩, fun hv => ⟨_, exec_encInstr .difference u s, ?_⟩⟩
  · rw [← encBlankFlag_difference]
    exact shows_encOutput s.config .difference u hv
  · exact showsNothing_encOutput s.config .difference u hv

/-- The sign position follows `enc_neg` for every input: a value that ENC cannot render has `enc_neg` = 0 and a blank
sign (R71, R79). -/
theorem encOutput_sign (cfg : Config) (path : EncPath) (u : TempUnit) (v : Flt) :
    if (encOutput cfg path v u).neg then lut cfg 12 = some (encOutput cfg path v u).sseg
    else (encOutput cfg path v u).sseg = 0xFF := by
  by_cases hv : encodable v = true
  case pos => exact (shows_encOutput cfg path u hv).sign_seg
  case neg =>
    have hnone := showsNothing_encOutput cfg path u hv
    obtain ⟨hneg, -⟩ := hnone.flags
    simpa [hneg] using hnone.sign_seg

theorem encOutput_sseg_of_neg {cfg : Config} {path : EncPath} {u : TempUnit} {v : Flt}
    (h : (encOutput cfg path v u).neg = true) : lut cfg 12 = some (encOutput cfg path v u).sseg := by
  have hsign := encOutput_sign cfg path u v
  rwa [if_pos h] at hsign

theorem encOutput_sseg_of_not_neg {cfg : Config} {path : EncPath} {u : TempUnit} {v : Flt}
    (h : (encOutput cfg path v u).neg = false) : (encOutput cfg path v u).sseg = 0xFF := by
  have hsign := encOutput_sign cfg path u v
  rwa [if_neg (ne_true_of_eq_false h)] at hsign

/-- Settles O19: the sign position by `encOutput_sign`, and `enc_neg` from what ENC shows of a value that it can render
and of one that it cannot. -/
theorem signShownOnBothPaths : Obligations.SignShownOnBothPaths := by
  refine fun s u path => ⟨_, exec_encInstr path u s, encOutput_sseg_of_neg, encOutput_sseg_of_not_neg,
    fun hv => ?rendered, fun hv => ?unrendered⟩
  case rendered => exact (shows_encOutput s.config path u hv).neg_eq
  case unrendered =>
    obtain ⟨hneg, -⟩ := (showsNothing_encOutput s.config path u (ne_true_of_eq_false hv)).flags
    exact hneg

/-! ### SEGLUT on ENC's glyphs -/

theorem exec_segLut_glyph {s : State} {g : GlyphIndex} {seg : SegPattern} (h : lut s.config g = some seg) :
    exec .segLut { s with lutG := g } = .next { s with lutG := g, lut := some { seg := seg, status := 0 } } :=
  exec_segLut_of_some (s := { s with lutG := g }) h

/-- The unit glyph is drawn from the table whether or not ENC can render the value (R71, R78). -/
theorem lut_encOutput_useg (cfg : Config) (path : EncPath) (u : TempUnit) (v : Flt) :
    lut cfg (unitGlyph u) = some (encOutput cfg path v u).useg := by
  by_cases hv : encodable v = true
  · exact (shows_encOutput cfg path u hv).unit_seg
  · exact (showsNothing_encOutput cfg path u hv).unit_seg

/-- A digit of a rendered value is drawn from the table unless it is the blanked tens digit (R76, R77). -/
theorem Shows.lut_digit {cfg : Config} {u : TempUnit} {v : Flt} {m : Nat} {blank : Bool} {o : EncOut}
    (h : Shows cfg u v m blank o) (i : Fin 5) (hi : i = 0 → o.blank = false) :
    lut cfg (o.d[i.val].setWidth 5) = some o.dseg[i.val] := by
  by_cases h0 : i = 0
  · subst h0
    have htens := h.tens_seg
    rw [← h.blank_eq, hi rfl] at htens
    simpa using htens
  · exact h.digit_seg i h0

theorem lut_encOutput_digit {cfg : Config} {path : EncPath} {u : TempUnit} {v : Flt} (i : Fin 5)
    (hinv : (encOutput cfg path v u).inv = false) (hi : i = 0 → (encOutput cfg path v u).blank = false) :
    lut cfg ((encOutput cfg path v u).d[i.val].setWidth 5) = some (encOutput cfg path v u).dseg[i.val] := by
  by_cases hv : encodable v = true
  case pos => exact (shows_encOutput cfg path u hv).lut_digit i hi
  case neg =>
    obtain ⟨-, -, -, hinv'⟩ := (showsNothing_encOutput cfg path u hv).flags
    rw [hinv'] at hinv
    cases hinv

/-- Settles O21: each glyph that ENC draws is an entry of the table, and `exec_segLut_glyph` looks up the same entry. -/
theorem encAndSegLutAgree : Obligations.EncAndSegLutAgree := by
  refine fun s u path => ⟨_, exec_encInstr path u s, ?unit, fun hneg => ?sign, fun i hinv hi => ?digit⟩
  case unit =>
    rintro _ rfl
    exact exec_segLut_glyph (lut_encOutput_useg s.config path u s.encV)
  case sign => exact exec_segLut_glyph (encOutput_sseg_of_neg hneg)
  case digit => exact exec_segLut_glyph (lut_encOutput_digit i hinv hi)

end Sys2Proof.Machine
end

section
/-! R87 and R89: PWMMAP's selector, its four cases, and which bit patterns fall under each of them. -/

namespace Sys2Proof.Machine

/-! ### The order of binary32 around zero -/

@[simp] theorem isNaN_fltZero : isNaN fltZero = false := by decide

@[simp] theorem fltKey_fltZero : fltKey fltZero = 0 := by decide

theorem fltLt_fltZero_iff (d : Flt) : fltLt d fltZero = true ↔ isNaN d = false ∧ fltKey d < 0 := by
  simp [fltLt]

theorem fltZero_fltLt_iff (d : Flt) : fltLt fltZero d = true ↔ isNaN d = false ∧ 0 < fltKey d := by
  simp [fltLt]

theorem fltEq_fltZero_iff (d : Flt) : fltEq d fltZero = true ↔ isNaN d = false ∧ fltKey d = 0 := by
  simp [fltEq]

/-- R87's four cases cover every input: a value that is not a NaN has its place below, at or above that of zero. -/
theorem isNaN_or_fltLt_or_fltEq_or_fltLt (d : Flt) :
    isNaN d = true ∨ fltLt d fltZero = true ∨ fltEq d fltZero = true ∨ fltLt fltZero d = true := by
  cases hnan : isNaN d with
  | true => exact .inl rfl
  | false =>
    rcases lt_trichotomy (fltKey d) 0 with hneg | hzero | hpos
    · exact .inr (.inl ((fltLt_fltZero_iff d).2 ⟨hnan, hneg⟩))
    · exact .inr (.inr (.inl ((fltEq_fltZero_iff d).2 ⟨hnan, hzero⟩)))
    · exact .inr (.inr (.inr ((fltZero_fltLt_iff d).2 ⟨hnan, hpos⟩)))

/-! ### The order around zero, by bit pattern -/

/-- The NaNs are the patterns whose bits 30:0 lie past those of infinity. -/
theorem isNaN_eq_false_iff (v : Flt) : isNaN v = false ↔ v.toNat % 2 ^ 31 ≤ infinityBits := by
  simp only [isNaN, Bool.and_eq_false_iff, beq_eq_false_iff_ne, bne_eq_false_iff_eq, fltExp, fltFrac, infinityBits]
  omega

/-- Bit 31 is the top bit, so it is set exactly in the upper half of the patterns. -/
theorem fltSign_eq_decide (v : Flt) : fltSign v = decide (2 ^ 31 ≤ v.toNat) :=
  BitVec.msb_eq_decide v

theorem fltKey_of_lower_half {v : Flt} (h : v.toNat < 2 ^ 31) : fltKey v = v.toNat := by
  simp only [fltKey, fltSign_eq_decide, decide_eq_true_eq]
  omega

theorem fltKey_of_upper_half {v : Flt} (h : 2 ^ 31 ≤ v.toNat) : fltKey v = 2 ^ 31 - (v.toNat : Int) := by
  have := v.isLt
  simp only [fltKey, fltSign_eq_decide, decide_eq_true_eq]
  omega

/-- From the least positive subnormal to +infinity. -/
theorem fltZero_fltLt_of_toNat {d : Flt} (hlo : 0x00000001 ≤ d.toNat) (hhi : d.toNat ≤ 0x7F800000) :
    fltLt fltZero d = true := by
  rw [fltZero_fltLt_iff, isNaN_eq_false_iff, fltKey_of_lower_half (by omega), infinityBits]
  omega

/-- From the negative of the least subnormal to -infinity. -/
theorem fltLt_fltZero_of_toNat {d : Flt} (hlo : 0x80000001 ≤ d.toNat) (hhi : d.toNat ≤ 0xFF800000) :
    fltLt d fltZero = true := by
  rw [fltLt_fltZero_iff, isNaN_eq_false_iff, fltKey_of_upper_half (by omega), infinityBits]
  omega

/-- Both zeros have the place 0. -/
theorem fltEq_fltZero_of_eq {d : Flt} (h : d = 0x00000000 ∨ d = 0x80000000) : fltEq d fltZero = true := by
  rcases h with rfl | rfl <;> decide

/-! ### PWM's outputs, case by case -/

theorem pwmOutput_of_isNaN {d : Flt} (h : isNaN d = true) : pwmOutput d = pwmInvalid := if_pos h

theorem pwmOutput_of_not_isNaN {d : Flt} (h : isNaN d = false) :
    pwmOutput d =
      if fltKey d < 0 then pwmDuties dutyFull 0 0
      else if fltKey d = 0 then pwmDuties 0 dutyMin 0
      else pwmDuties 0 0 dutyFull := by
  have hlt : fltLt d fltZero = true ↔ fltKey d < 0 := (fltLt_fltZero_iff d).trans (and_iff_right h)
  have heq : fltEq d fltZero = true ↔ fltKey d = 0 := (fltEq_fltZero_iff d).trans (and_iff_right h)
  simp only [pwmOutput, pwmInvFlag, h, hlt, heq, Bool.false_eq_true, if_false]

theorem pwmOutput_of_fltLt_fltZero {d : Flt} (h : fltLt d fltZero = true) : pwmOutput d = pwmDuties dutyFull 0 0 := by
  obtain ⟨hnan, hneg⟩ := (fltLt_fltZero_iff d).1 h
  rw [pwmOutput_of_not_isNaN hnan, if_pos hneg]

theorem pwmOutput_of_fltEq_fltZero {d : Flt} (h : fltEq d fltZero = true) : pwmOutput d = pwmDuties 0 dutyMin 0 := by
  obtain ⟨hnan, hzero⟩ := (fltEq_fltZero_iff d).1 h
  rw [pwmOutput_of_not_isNaN hnan, if_neg hzero.not_lt, if_pos hzero]

theorem pwmOutput_of_fltZero_fltLt {d : Flt} (h : fltLt fltZero d = true) : pwmOutput d = pwmDuties 0 0 dutyFull := by
  obtain ⟨hnan, hpos⟩ := (fltZero_fltLt_iff d).1 h
  rw [pwmOutput_of_not_isNaN hnan, if_neg hpos.not_gt, if_neg hpos.ne']

/-! ### PWMMAP -/

/-- PWMMAP answers in every state and changes PWM's result alone. -/
theorem exec_pwmMap_of_pwmOutput {s : State} {o : PwmOut} (h : pwmOutput s.pwmD = o) :
    exec .pwmMap s = .next { s with pwm := some o } := by
  rw [exec_pwmMap, h]
  rfl

/-- The last row of R59's table compares all four bits of the selector, and no other row names PWMMAP. -/
theorem decode_eq_ok_pwmMap_iff (sel : Sel) : decode sel = .ok .pwmMap ↔ sel = 0b1100 := by
  revert sel; decide

/-- Settles O25: each range of bit patterns has its place in the order below, at or above zero, and no NaN lies in
any of them. -/
theorem pwmHasNoDeadBand : Obligations.PwmHasNoDeadBand := by
  refine fun s => ⟨fun hzero => ?zero, fun hlo hhi => ?positive, fun hlo hhi => ?negative⟩
  case zero => exact exec_pwmMap_of_pwmOutput (pwmOutput_of_fltEq_fltZero (fltEq_fltZero_of_eq hzero))
  case positive => exact exec_pwmMap_of_pwmOutput (pwmOutput_of_fltZero_fltLt (fltZero_fltLt_of_toNat hlo hhi))
  case negative => exact exec_pwmMap_of_pwmOutput (pwmOutput_of_fltLt_fltZero (fltLt_fltZero_of_toNat hlo hhi))

/-- Settles O24: the selector by R59's table, the cases by the place of the difference in the order around zero. -/
theorem pwmMapsSign : Obligations.PwmMapsSign := by
  refine ⟨decode_eq_ok_pwmMap_iff, fun s => ⟨isNaN_or_fltLt_or_fltEq_or_fltLt s.pwmD,
    fun hnan => ?invalid, fun hneg => ?negative, fun hzero => ?zero, fun hpos => ?positive⟩⟩
  case invalid => exact exec_pwmMap_of_pwmOutput (pwmOutput_of_isNaN hnan)
  case negative => exact exec_pwmMap_of_pwmOutput (pwmOutput_of_fltLt_fltZero hneg)
  case zero => exact exec_pwmMap_of_pwmOutput (pwmOutput_of_fltEq_fltZero hzero)
  case positive => exact exec_pwmMap_of_pwmOutput (pwmOutput_of_fltZero_fltLt hpos)

end Sys2Proof.Machine
end

section
/-! R59, R60 and 95_test_vectors.md section 3: the selector's decoder against its encoder, and the decoder of a word
sequence against its encoder. -/

namespace Sys2Proof.Machine

/-! ### Selectors -/

/-- The fourth row of R59's table compares all four bits of the selector, and no other row names SEGLUT. -/
theorem decode_eq_ok_segLut_iff (sel : Sel) : decode sel = .ok .segLut ↔ sel = 0b1000 := by
  revert sel; decide

theorem decode_eq_ok_iff (sel : Sel) (i : Instr) : decode sel = .ok i ↔ sel = encode i := by
  cases i with
  | decode => exact decode_eq_ok_decode_iff sel
  | encPlain u => exact decode_eq_ok_encInstr_iff .plain u sel
  | encDiff u => exact decode_eq_ok_encInstr_iff .difference u sel
  | segLut => exact decode_eq_ok_segLut_iff sel
  | pwmMap => exact decode_eq_ok_pwmMap_iff sel

@[simp] theorem decode_encode (i : Instr) : decode (encode i) = .ok i := (decode_eq_ok_iff _ i).2 rfl

/-- Settles O3: the decoder against the encoder, operation by operation. -/
theorem encodeInvertsDecode : Obligations.EncodeInvertsDecode := decode_eq_ok_iff

/-- The mask of ENC's rows leaves the unit bit open, so mask, match and unit bit together fix the selector. -/
theorem eq_encode_encPlain_iff (sel : Sel) (u : TempUnit) :
    sel = encode (.encPlain u) ↔ sel &&& 0xD = 0x4 ∧ (u = .fahrenheit ↔ sel.getLsbD 1 = true) := by
  revert sel
  cases u <;> decide

theorem eq_encode_encDiff_iff (sel : Sel) (u : TempUnit) :
    sel = encode (.encDiff u) ↔ sel &&& 0xD = 0x5 ∧ (u = .fahrenheit ↔ sel.getLsbD 1 = true) := by
  revert sel
  cases u <;> decide

/-- The mask of the other rows is all ones. -/
theorem and_allOnes_eq_iff (sel value : Sel) : sel &&& 0xF = value ↔ sel = value := by
  rw [show (0xF : Sel) = BitVec.allOnes 4 from rfl, BitVec.and_allOnes]

/-- Settles O1: the decoder inverts the encoder, and each row of R59 holds the encodings of its operation alone. -/
theorem selectorTableDecodes : Obligations.SelectorTableDecodes := by
  intro sel
  simp only [decode_eq_ok_iff, and_allOnes_eq_iff]
  exact ⟨.rfl, eq_encode_encPlain_iff sel, eq_encode_encDiff_iff sel, .rfl, .rfl⟩

/-- Settles O2, by the table on each of the sixteen values. -/
theorem reservedSelectorsRefused : Obligations.ReservedSelectorsRefused := by
  unfold Obligations.ReservedSelectorsRefused
  decide

/-! ### One operation and its operand words -/

/-- The words after the selector: the operand port values. -/
def operandWords : Operation → List Nat
  | .decode b0 b1 ok => [b0.toNat, b1.toNat, bitWord ok]
  | .encPlain _ v => [v.toNat]
  | .encDiff _ v => [v.toNat]
  | .segLut g => [g.toNat]
  | .pwmMap d => [d.toNat]

theorem encodeOperation_eq (o : Operation) : encodeOperation o = (encode o.instr).toNat :: operandWords o := by
  cases o <;> rfl

/-- A sequence of reads goes on exactly when its first read does and the rest goes on with what that read. -/
theorem bind_eq_ok_iff {ε α β : Type} {x : Except ε α} {f : α → Except ε β} {b : β} :
    (x >>= f) = .ok b ↔ ∃ a, x = .ok a ∧ f a = .ok b := by
  cases x with
  | ok a => simp [bind, Except.bind]
  | error e => simp [bind, Except.bind]

/-- A 1-bit port value is written as the word of its one bit. -/
theorem bitWord_getLsbD (b : BitVec 1) : bitWord (b.getLsbD 0) = b.toNat := by
  revert b; decide

theorem exists_bit_eq (ok : Bool) : ∃ b : BitVec 1, b.getLsbD 0 = ok := by
  cases ok with
  | true => exact ⟨1, rfl⟩
  | false => exact ⟨0, rfl⟩

/-- The operands of an operation that has one operand. -/
theorem readOperand_bind_eq_ok_iff {n : Nat} {build : BitVec n → Operation} {ws rest : List Nat} {o : Operation} :
    (readOperand n ws >>= fun (v, ws) => .ok (build v, ws)) = .ok (o, rest) ↔
      ∃ v, build v = o ∧ ws = v.toNat :: rest := by
  simp only [bind_eq_ok_iff, Prod.exists, readOperand_eq_ok, Except.ok.injEq, Prod.mk.injEq]
  constructor
  · rintro ⟨v, _, rfl, rfl, rfl⟩
    exact ⟨v, rfl, rfl⟩
  · rintro ⟨v, rfl, rfl⟩
    exact ⟨v, rest, rfl, rfl, rfl⟩

theorem readOperands_decode_eq_ok_iff {ws rest : List Nat} {o : Operation} :
    readOperands .decode ws = .ok (o, rest) ↔
      ∃ b0 b1 ok, .decode b0 b1 ok = o ∧ ws = b0.toNat :: b1.toNat :: bitWord ok :: rest := by
  simp only [readOperands, bind_eq_ok_iff, Prod.exists, readOperand_eq_ok, Except.ok.injEq, Prod.mk.injEq]
  constructor
  · rintro ⟨b0, _, rfl, b1, _, rfl, ok, _, rfl, rfl, rfl⟩
    exact ⟨b0, b1, ok.getLsbD 0, rfl, by rw [bitWord_getLsbD]⟩
  · rintro ⟨b0, b1, ok, rfl, rfl⟩
    obtain ⟨b, rfl⟩ := exists_bit_eq ok
    exact ⟨b0, _, rfl, b1, _, rfl, b, rest, by rw [bitWord_getLsbD], rfl, rfl⟩

/-- The operands of an operation are read exactly from its operand words. -/
theorem readOperands_eq_ok_iff {i : Instr} {ws rest : List Nat} {o : Operation} :
    readOperands i ws = .ok (o, rest) ↔ o.instr = i ∧ ws = operandWords o ++ rest := by
  cases i with
  | decode =>
    rw [readOperands_decode_eq_ok_iff]
    constructor
    · rintro ⟨b0, b1, ok, rfl, rfl⟩
      exact ⟨rfl, rfl⟩
    · rintro ⟨hi, rfl⟩
      cases o with
      | decode b0 b1 ok => exact ⟨b0, b1, ok, rfl, rfl⟩
      | _ => cases hi
  | encPlain u =>
    rw [readOperands, readOperand_bind_eq_ok_iff (build := .encPlain u)]
    cases o <;> simp [Operation.instr, operandWords, eq_comm]
  | encDiff u =>
    rw [readOperands, readOperand_bind_eq_ok_iff (build := .encDiff u)]
    cases o <;> simp [Operation.instr, operandWords, eq_comm]
  | segLut =>
    rw [readOperands, readOperand_bind_eq_ok_iff (build := .segLut)]
    cases o <;> simp [Operation.instr, operandWords]
  | pwmMap =>
    rw [readOperands, readOperand_bind_eq_ok_iff (build := .pwmMap)]
    cases o <;> simp [Operation.instr, operandWords]

/-- An operation is decoded exactly from the words that encode it. -/
theorem decodeOperation_eq_ok_iff {ws rest : List Nat} {o : Operation} :
    decodeOperation ws = .ok (o, rest) ↔ ws = encodeOperation o ++ rest := by
  cases ws with
  | nil => simp [decodeOperation, encodeOperation_eq]
  | cons w tl =>
    rw [encodeOperation_eq, List.cons_append, List.cons.injEq, decodeOperation]
    cases hsel : portValue 4 w with
    | error e =>
      suffices w ≠ (encode o.instr).toNat by simp [this]
      rintro rfl
      rw [portValue_eq_ok.2 rfl] at hsel
      cases hsel
    | ok sel =>
      obtain rfl := portValue_eq_ok.1 hsel
      rw [BitVec.toNat_inj, ← decode_eq_ok_iff]
      cases hi : decode sel with
      | error e => simp [hi]
      | ok i => simp [hi, readOperands_eq_ok_iff, eq_comm (a := i)]

/-! ### Programs -/

theorem encodeProgram_cons (o : Operation) (os : List Operation) :
    encodeProgram (o :: os) = encodeOperation o ++ encodeProgram os := rfl

/-- With fuel for each operation, a word sequence decodes to exactly the program that it encodes. -/
theorem decodeProgramUpTo_eq_ok_iff {fuel : Nat} {ws : List Nat} {os : List Operation} :
    decodeProgramUpTo fuel ws = .ok os ↔ encodeProgram os = ws ∧ os.length ≤ fuel := by
  induction fuel generalizing ws os with
  | zero =>
    cases ws <;> cases os <;> simp [decodeProgramUpTo, encodeProgram]
  | succ fuel ih =>
    cases ws with
    | nil => cases os <;> simp [decodeProgramUpTo, encodeProgram, encodeOperation_eq]
    | cons w ws =>
      rw [decodeProgramUpTo]
      constructor
      · intro h
        split at h
        · cases h
        · rename_i o rest ho
          split at h
          · cases h
          · rename_i os' hos
            cases h
            obtain ⟨rfl, hlen⟩ := ih.1 hos
            exact ⟨(decodeOperation_eq_ok_iff.1 ho).symm, Nat.succ_le_succ hlen⟩
      · rintro ⟨henc, hlen⟩
        cases os with
        | nil => cases henc
        | cons o os =>
          have hos := ih.2 ⟨rfl, Nat.le_of_succ_le_succ hlen⟩
          rw [encodeProgram_cons] at henc
          rw [decodeOperation_eq_ok_iff.2 henc.symm]
          simp only [hos]

/-- Every operation takes at least one word, so the words of a program are fuel enough for it. -/
theorem length_le_length_encodeProgram (os : List Operation) : os.length ≤ (encodeProgram os).length := by
  induction os with
  | nil => exact Nat.le_refl 0
  | cons o os ih =>
    rw [encodeProgram_cons, encodeOperation_eq, List.length_append, List.length_cons, List.length_cons]
    omega

theorem decodeProgram_encodeProgram (os : List Operation) : decodeProgram (encodeProgram os) = .ok os :=
  decodeProgramUpTo_eq_ok_iff.2 ⟨rfl, length_le_length_encodeProgram os⟩

/-- Settles O5, by induction on the fuel: `decodeProgramUpTo_eq_ok_iff`, with the words of the program as the fuel. -/
theorem programEncodingRoundTrip : Obligations.ProgramEncodingRoundTrip := decodeProgram_encodeProgram

/-- Settles O6: the converse direction of `decodeProgramUpTo_eq_ok_iff`. -/
theorem programDecodingUnambiguous : Obligations.ProgramDecodingUnambiguous := fun _ _ h =>
  (decodeProgramUpTo_eq_ok_iff.1 h).1

/-- Settles O4: each selector word by its row of R59, the program by the round trip, since its words are its encoding. -/
theorem writtenWordsDecode : Obligations.WrittenWordsDecode :=
  ⟨by decide, by decide, by decide, by decide, by decide,
    decodeProgram_encodeProgram [.decode 0x0B 0x80 true, .encDiff .celsius 0xBF000000, .pwmMap 0xBF000000]⟩

end Sys2Proof.Machine
end

section
/-! R10 and G1: the order of binary32. A value's place in the order and its exact real rise together, so comparing the
places compares the reals. -/

namespace Sys2Proof.Machine

/-! ### Magnitudes -/

/-- The magnitude that bits 30:0 stand for, in units of 2^-149; past the finite values it goes on in the same way. -/
def magnitudeUnits (b : Nat) : Nat :=
  if b < 2 ^ 23 then b else (2 ^ 23 + b % 2 ^ 23) * 2 ^ (b / 2 ^ 23 - 1)

theorem fltAbs_eq_ofNat (v : Flt) : fltAbs v = BitVec.ofNat 32 (v.toNat % 2 ^ 31) := by
  apply BitVec.eq_of_toNat_eq
  rw [fltAbs_toNat, BitVec.toNat_ofNat]
  omega

theorem fltUnits_eq_magnitudeUnits (v : Flt) : fltUnits v = magnitudeUnits (v.toNat % 2 ^ 31) := by
  rw [← fltAbs_units, fltAbs_eq_ofNat, fltUnits_ofNat (Nat.mod_lt _ (by norm_num)), magnitudeUnits]

/-- The next pattern has a greater magnitude: within a binade by one unit in the last place, and at its end by the carry
into the next exponent. -/
theorem magnitudeUnits_lt_succ (b : Nat) : magnitudeUnits b < magnitudeUnits (b + 1) := by
  unfold magnitudeUnits
  rcases Nat.lt_or_ge (b + 1) (2 ^ 23) with hsub | hnorm
  case inl => rw [if_pos (by omega), if_pos hsub]; omega
  rw [if_neg (Nat.not_lt.2 hnorm)]
  rcases Nat.lt_or_ge b (2 ^ 23) with hlast | hb
  case inl =>
    have hfrac : (b + 1) % 2 ^ 23 = 0 := by omega
    have hexp : (b + 1) / 2 ^ 23 - 1 = 0 := by omega
    rw [if_pos hlast, hfrac, hexp]
    omega
  rw [if_neg (Nat.not_lt.2 hb)]
  rcases Nat.lt_or_ge (b % 2 ^ 23 + 1) (2 ^ 23) with hin | hend
  case inl =>
    have hexp : (b + 1) / 2 ^ 23 = b / 2 ^ 23 := by omega
    rw [hexp]
    exact Nat.mul_lt_mul_of_pos_right (by omega) (by positivity)
  case inr =>
    have hfrac : (b + 1) % 2 ^ 23 = 0 := by omega
    have hexp : (b + 1) / 2 ^ 23 - 1 = b / 2 ^ 23 - 1 + 1 := by omega
    rw [hfrac, hexp, pow_succ' 2 (b / 2 ^ 23 - 1), ← mul_assoc]
    exact Nat.mul_lt_mul_of_pos_right (by omega) (by positivity)

theorem magnitudeUnits_strictMono : StrictMono magnitudeUnits := strictMono_nat_of_lt_succ magnitudeUnits_lt_succ

@[simp] theorem magnitudeUnits_zero : magnitudeUnits 0 = 0 := by simp [magnitudeUnits]

/-! ### Exact reals -/

/-- The exact real at a place of the order. -/
def realAt (key : Int) : Int :=
  if key < 0 then -(magnitudeUnits key.natAbs : Int) else (magnitudeUnits key.natAbs : Int)

theorem fltReal_eq_realAt (v : Flt) : fltReal v = realAt (fltKey v) := by
  rw [fltReal, realAt, fltKey, fltUnits_eq_magnitudeUnits]
  generalize v.toNat % 2 ^ 31 = b
  cases fltSign v with
  | false => simp
  | true =>
    rcases Nat.eq_zero_or_pos b with rfl | hb
    · simp
    · simp [hb]

theorem realAt_strictMono : StrictMono realAt := by
  intro i j hij
  have hlt : ∀ a b : Nat, a < b → magnitudeUnits a < magnitudeUnits b := fun _ _ h => magnitudeUnits_strictMono h
  unfold realAt
  rcases lt_or_ge i 0 with hi | hi <;> rcases lt_or_ge j 0 with hj | hj
  · have := hlt j.natAbs i.natAbs (by omega)
    rw [if_pos hi, if_pos hj]; omega
  · have := hlt 0 i.natAbs (by omega)
    rw [if_pos hi, if_neg (not_lt.2 hj)]; omega
  · omega
  · have := hlt i.natAbs j.natAbs (by omega)
    rw [if_neg (not_lt.2 hi), if_neg (not_lt.2 hj)]; omega

theorem fltReal_lt_iff (a b : Flt) : fltReal a < fltReal b ↔ fltKey a < fltKey b := by
  rw [fltReal_eq_realAt, fltReal_eq_realAt, realAt_strictMono.lt_iff_lt]

theorem fltReal_eq_iff (a b : Flt) : fltReal a = fltReal b ↔ fltKey a = fltKey b := by
  rw [fltReal_eq_realAt, fltReal_eq_realAt, realAt_strictMono.injective.eq_iff]

/-! ### The places of finite values and of infinities -/

theorem isFinite_iff (v : Flt) : isFinite v = true ↔ v.toNat % 2 ^ 31 < infinityBits := by
  simp only [isFinite, bne_iff_ne, ne_eq, fltExp, infinityBits]
  omega

theorem isInf_iff (v : Flt) : isInf v = true ↔ v.toNat % 2 ^ 31 = infinityBits := by
  simp only [isInf, Bool.and_eq_true, beq_iff_eq, fltExp, fltFrac, infinityBits]
  omega

theorem isNaN_of_isFinite {v : Flt} (h : isFinite v = true) : isNaN v = false :=
  (isNaN_eq_false_iff v).2 ((isFinite_iff v).1 h).le

theorem isNaN_of_isInf {v : Flt} (h : isInf v = true) : isNaN v = false :=
  (isNaN_eq_false_iff v).2 ((isInf_iff v).1 h).le

theorem fltKey_bounds_of_isFinite {v : Flt} (h : isFinite v = true) :
    -(infinityBits : Int) < fltKey v ∧ fltKey v < infinityBits := by
  have := (isFinite_iff v).1 h
  unfold fltKey
  split <;> omega

theorem fltKey_of_isInf {v : Flt} (h : isInf v = true) :
    fltKey v = if fltSign v then -(infinityBits : Int) else (infinityBits : Int) := by
  rw [fltKey, (isInf_iff v).1 h]

/-! ### The comparisons -/

theorem fltLt_eq_decide {a b : Flt} (ha : isNaN a = false) (hb : isNaN b = false) :
    fltLt a b = decide (fltKey a < fltKey b) := by simp [fltLt, ha, hb]

theorem fltEq_eq_decide {a b : Flt} (ha : isNaN a = false) (hb : isNaN b = false) :
    fltEq a b = decide (fltKey a = fltKey b) := by simp [fltEq, ha, hb]

theorem fltLt_iff_of_isFinite {a b : Flt} (ha : isFinite a = true) (hb : isFinite b = true) :
    fltLt a b = true ↔ fltReal a < fltReal b := by
  rw [fltLt_eq_decide (isNaN_of_isFinite ha) (isNaN_of_isFinite hb), decide_eq_true_eq, fltReal_lt_iff]

theorem fltEq_iff_of_isFinite {a b : Flt} (ha : isFinite a = true) (hb : isFinite b = true) :
    fltEq a b = true ↔ fltReal a = fltReal b := by
  rw [fltEq_eq_decide (isNaN_of_isFinite ha) (isNaN_of_isFinite hb), decide_eq_true_eq, fltReal_eq_iff]

theorem compare_of_isNaN {a b : Flt} (h : isNaN a = true ∨ isNaN b = true) : fltLt a b = false ∧ fltEq a b = false := by
  rcases h with h | h <;> simp [fltLt, fltEq, h]

/-- An infinity lies past every finite value, on the side of its sign. -/
theorem compare_isInf_isFinite {a b : Flt} (ha : isInf a = true) (hb : isFinite b = true) :
    fltLt a b = fltSign a ∧ fltLt b a = !fltSign a ∧ fltEq a b = false := by
  have hna := isNaN_of_isInf ha
  have hnb := isNaN_of_isFinite hb
  obtain ⟨hlo, hhi⟩ := fltKey_bounds_of_isFinite hb
  rw [fltLt_eq_decide hna hnb, fltLt_eq_decide hnb hna, fltEq_eq_decide hna hnb, fltKey_of_isInf ha]
  cases fltSign a <;> simp <;> omega

theorem compare_isInf_isInf {a b : Flt} (ha : isInf a = true) (hb : isInf b = true) :
    fltLt a b = (fltSign a && !fltSign b) ∧ fltEq a b = (fltSign a == fltSign b) := by
  rw [fltLt_eq_decide (isNaN_of_isInf ha) (isNaN_of_isInf hb), fltEq_eq_decide (isNaN_of_isInf ha) (isNaN_of_isInf hb),
    fltKey_of_isInf ha, fltKey_of_isInf hb]
  cases fltSign a <;> cases fltSign b <;> decide

/-- Settles O8: finite values by `realAt_strictMono`, infinities by their places past all finite ones. -/
theorem comparisonsAreIeee : Obligations.ComparisonsAreIeee := fun _ _ =>
  ⟨fun ha hb => ⟨fltLt_iff_of_isFinite ha hb, fltEq_iff_of_isFinite ha hb⟩, compare_of_isNaN, compare_isInf_isFinite,
    compare_isInf_isInf⟩

end Sys2Proof.Machine
end

section
/-! R7, R10 and G1: `fl` rounds to the nearest binary32 value, a tie to the even significand, and overflows from the
midpoint above the greatest finite value on. -/

namespace Sys2Proof.Machine

/-! ### The fields of a rounded value -/

theorem fl_toNat (n : Int) : (fl n).toNat = (if n < 0 then 2 ^ 31 else 0) + flMagnitude n.natAbs := by
  have hlt := flMagnitude_lt n.natAbs
  unfold fl
  split <;> rw [BitVec.toNat_ofNat] <;> omega

theorem fl_toNat_mod (n : Int) : (fl n).toNat % 2 ^ 31 = flMagnitude n.natAbs := by
  have hlt := flMagnitude_lt n.natAbs
  rw [fl_toNat]
  split <;> omega

@[simp] theorem fltSign_fl (n : Int) : fltSign (fl n) = decide (n < 0) := by
  have hlt := flMagnitude_lt n.natAbs
  rw [fltSign_eq_decide, fl_toNat, decide_eq_decide]
  split <;> omega

theorem fltUnits_fl (n : Int) : fltUnits (fl n) = fltUnits (BitVec.ofNat 32 (flMagnitude n.natAbs)) := by
  have hlt := flMagnitude_lt n.natAbs
  rw [fltUnits_eq_magnitudeUnits, fltUnits_eq_magnitudeUnits, fl_toNat_mod, BitVec.toNat_ofNat]
  congr 1
  omega

/-- Bit 0 is that of the magnitude, since the sign is added above it. -/
theorem fl_getLsbD_zero (n : Int) : (fl n).getLsbD 0 = decide (flMagnitude n.natAbs % 2 = 1) := by
  rw [BitVec.getLsbD, Nat.testBit_zero, fl_toNat, decide_eq_decide]
  split <;> omega

/-! ### Overflow -/

theorem infinityBits_le_iff (n : Nat) :
    infinityBits ≤ excessBits n * 2 ^ 23 + roundEven n (excessBits n) ↔ (2 ^ 25 - 1) * 2 ^ 252 ≤ n := by
  obtain ⟨hhi, hlo⟩ := significand_bounds n
  have hround := roundEven_cases n (excessBits n)
  rcases lt_trichotomy (excessBits n) 253 with hk | hk | hk
  case inl =>
    have hn : n < 2 ^ 24 * 2 ^ excessBits n := (Nat.div_lt_iff_lt_mul (by positivity)).1 hhi
    have hpow : 2 ^ excessBits n ≤ 2 ^ 252 := Nat.pow_le_pow_right (by norm_num) (by omega)
    simp only [infinityBits]
    omega
  case inr.inl =>
    rw [hk, roundEven, infinityBits]
    rw [hk] at hhi
    split <;> omega
  case inr.inr =>
    have hn : 2 ^ 23 * 2 ^ excessBits n ≤ n := (Nat.le_div_iff_mul_le (by positivity)).1 (hlo (by omega))
    have hpow : 2 ^ 254 ≤ 2 ^ excessBits n := Nat.pow_le_pow_right (by norm_num) (by omega)
    have := hlo (by omega)
    simp only [infinityBits]
    omega

theorem isInf_fl_iff (n : Int) : isInf (fl n) = true ↔ (2 ^ 25 - 1) * 2 ^ 252 ≤ n.natAbs := by
  rw [isInf_iff, fl_toNat_mod, flMagnitude, min_eq_right_iff, infinityBits_le_iff]

/-- Below the overflow threshold the value of `fl` is the rounded significand, scaled, and its last bit that of the
significand. -/
theorem fl_of_lt_overflow {n : Int} (h : n.natAbs < (2 ^ 25 - 1) * 2 ^ 252) :
    isFinite (fl n) = true ∧
      fltUnits (fl n) = roundEven n.natAbs (excessBits n.natAbs) * 2 ^ excessBits n.natAbs ∧
      (fl n).getLsbD 0 = decide (roundEven n.natAbs (excessBits n.natAbs) % 2 = 1) := by
  have hlt : excessBits n.natAbs * 2 ^ 23 + roundEven n.natAbs (excessBits n.natAbs) < infinityBits := by
    rw [← not_le, infinityBits_le_iff]
    omega
  have hmag : flMagnitude n.natAbs = excessBits n.natAbs * 2 ^ 23 + roundEven n.natAbs (excessBits n.natAbs) :=
    Nat.min_eq_left hlt.le
  refine ⟨(isFinite_fl n).2 (hmag ▸ hlt), ?_, ?_⟩
  · rw [fltUnits_fl, flMagnitude_units hlt]
  · rw [fl_getLsbD_zero, hmag, decide_eq_decide]
    omega

/-! ### Nearest -/

/-- Among the multiples of `2^k` the rounded one is nearest, and one that is as near is the same or the rounded one is
even. -/
theorem roundEven_nearest (n k m : Nat) :
    Nat.dist n (roundEven n k * 2 ^ k) ≤ Nat.dist n (m * 2 ^ k) ∧
      (Nat.dist n (roundEven n k * 2 ^ k) = Nat.dist n (m * 2 ^ k) → m = roundEven n k ∨ roundEven n k % 2 = 0) := by
  have hpos : 0 < 2 ^ k := by positivity
  have hn := Nat.div_add_mod' n (2 ^ k)
  have hrem := Nat.mod_lt n hpos
  have hbelow : m < n / 2 ^ k → m * 2 ^ k + 2 ^ k ≤ n / 2 ^ k * 2 ^ k := fun h => by
    rw [← Nat.succ_mul]; exact Nat.mul_le_mul_right _ h
  have habove : n / 2 ^ k + 1 < m → n / 2 ^ k * 2 ^ k + 2 ^ k + 2 ^ k ≤ m * 2 ^ k := fun h => by
    rw [← Nat.succ_mul, ← Nat.succ_mul]; exact Nat.mul_le_mul_right _ h
  have hnext : (n / 2 ^ k + 1) * 2 ^ k = n / 2 ^ k * 2 ^ k + 2 ^ k := Nat.succ_mul _ _
  unfold roundEven Nat.dist
  rcases lt_trichotomy m (n / 2 ^ k) with hm | rfl | hm
  · have := hbelow hm
    split <;> omega
  · split <;> omega
  · rcases Nat.eq_or_lt_of_le (Nat.add_one_le_iff.2 hm) with rfl | hm
    · split <;> omega
    · have := habove hm
      split <;> omega

/-- A binary32 value is a significand of at most 24 bits, scaled, and of exactly 24 bits where it is scaled up. -/
theorem exists_significand (v : Flt) : ∃ sig j, sig < 2 ^ 24 ∧ (0 < j → 2 ^ 23 ≤ sig) ∧ fltUnits v = sig * 2 ^ j := by
  have hfrac : fltFrac v < 2 ^ 23 := Nat.mod_lt _ (by norm_num)
  unfold fltUnits
  split
  · exact ⟨fltFrac v, 0, by omega, by simp, by simp⟩
  · exact ⟨2 ^ 23 + fltFrac v, fltExp v - 1, by omega, by omega, rfl⟩

/-- A value is a multiple of `2^k`, or lies below the binade in which significands count multiples of `2^k`. -/
theorem dvd_or_fltUnits_lt (v : Flt) (k : Nat) : 2 ^ k ∣ fltUnits v ∨ fltUnits v < 2 ^ 23 * 2 ^ k := by
  obtain ⟨sig, j, hsig, -, hv⟩ := exists_significand v
  rw [hv]
  rcases Nat.lt_or_ge j k with hj | hj
  · right
    calc sig * 2 ^ j < 2 ^ 24 * 2 ^ j := Nat.mul_lt_mul_of_pos_right hsig (by positivity)
      _ = 2 ^ 23 * 2 ^ (j + 1) := by rw [pow_succ]; ring
      _ ≤ 2 ^ 23 * 2 ^ k := Nat.mul_le_mul_left _ (Nat.pow_le_pow_right (by norm_num) hj)
  · exact .inl ((pow_dvd_pow 2 hj).mul_left sig)

/-- The rounded magnitude is as near as that of any binary32 value: a multiple of the unit in the last place by
`roundEven_nearest`, and a smaller value is farther off than the least multiple of the binade. -/
theorem rounded_nearest (n : Nat) (v : Flt) :
    Nat.dist n (roundEven n (excessBits n) * 2 ^ excessBits n) ≤ Nat.dist n (fltUnits v) ∧
      (Nat.dist n (roundEven n (excessBits n) * 2 ^ excessBits n) = Nat.dist n (fltUnits v) →
        fltUnits v = roundEven n (excessBits n) * 2 ^ excessBits n ∨ roundEven n (excessBits n) % 2 = 0) := by
  by_cases hdvd : 2 ^ excessBits n ∣ fltUnits v
  case pos =>
    obtain ⟨m, hm⟩ := hdvd
    rw [mul_comm] at hm
    rw [hm]
    obtain ⟨hle, heven⟩ := roundEven_nearest n (excessBits n) m
    exact ⟨hle, fun heq => (heven heq).imp_left (congrArg (· * 2 ^ excessBits n))⟩
  case neg =>
    have hsmall := (dvd_or_fltUnits_lt v (excessBits n)).resolve_left hdvd
    have hk : 0 < excessBits n := Nat.pos_of_ne_zero fun h => hdvd (by simp [h])
    have hbinade := (Nat.le_div_iff_mul_le (by positivity)).1 ((significand_bounds n).2 hk)
    have hle := (roundEven_nearest n (excessBits n) (2 ^ 23)).1
    unfold Nat.dist at *
    omega

/-! ### Distances of reals -/

/-- A value on the other side of zero is no nearer than its magnitude is. -/
theorem dist_le_abs_sub (n : Int) (v : Flt) : (Nat.dist n.natAbs (fltUnits v) : Int) ≤ |n - fltReal v| := by
  rw [Int.abs_eq_natAbs, fltReal, Nat.dist]
  split <;> omega

theorem abs_sub_fltReal_fl (n : Int) : |n - fltReal (fl n)| = Nat.dist n.natAbs (fltUnits (fl n)) := by
  rw [Int.abs_eq_natAbs, fltReal, fltSign_fl, Nat.dist]
  simp only [decide_eq_true_eq]
  split <;> omega

/-- A value with the rounded magnitude, as near as the rounded value, is on its side of zero or both are zero. -/
theorem fltReal_eq_of_units_eq {n : Int} {v : Flt} (hunits : fltUnits v = fltUnits (fl n))
    (hdist : |n - fltReal (fl n)| = |n - fltReal v|) : n = 0 ∨ fltReal v = fltReal (fl n) := by
  rw [Int.abs_eq_natAbs, Int.abs_eq_natAbs] at hdist
  simp only [fltReal, fltSign_fl, hunits, decide_eq_true_eq] at hdist ⊢
  split_ifs at hdist ⊢ <;> omega

theorem fl_nearest {n : Int} (h : n.natAbs < (2 ^ 25 - 1) * 2 ^ 252) (v : Flt) :
    |n - fltReal (fl n)| ≤ |n - fltReal v| ∧
      (|n - fltReal (fl n)| = |n - fltReal v| → fltReal v = fltReal (fl n) ∨ (fl n).getLsbD 0 = false) := by
  obtain ⟨-, hunits, hbit⟩ := fl_of_lt_overflow h
  obtain ⟨hle, heven⟩ := rounded_nearest n.natAbs v
  have habs := dist_le_abs_sub n v
  rw [← hunits] at hle heven
  have hfl := abs_sub_fltReal_fl n
  refine ⟨by omega, fun heq => ?_⟩
  rcases heven (by omega) with hsame | heven
  case inl =>
    rcases fltReal_eq_of_units_eq hsame heq with rfl | hreal
    · exact .inr rfl
    · exact .inl hreal
  case inr =>
    rw [hbit]
    exact .inr (by simp [heven])

/-- Settles O7: overflow by `infinityBits_le_iff`, the nearest value by `rounded_nearest` on magnitudes. -/
theorem roundsToNearestEven : Obligations.RoundsToNearestEven := by
  refine fun n => ⟨fun h => ⟨(isInf_fl_iff n).2 h, fltSign_fl n⟩, fun h => ⟨?_, fun v _ => fl_nearest h v⟩⟩
  exact (fl_of_lt_overflow h).1

end Sys2Proof.Machine
end

section
/-! R64 to R68: the range, the exactness and the sign of a reading, its two other forms, and the bits that it does not
depend on. -/

namespace Sys2Proof.Machine

/-! ### The reading of two bytes -/

theorem readingOf_bounds (b0 b1 : Byte) : -4096 ≤ readingOf b0 b1 ∧ readingOf b0 b1 ≤ 4095 := by
  have h0 := b0.isLt
  have h1 := b1.isLt
  unfold readingOf
  split <;> omega

theorem readingOf_neg_iff (b0 b1 : Byte) : readingOf b0 b1 < 0 ↔ b0.toNat ≥ 128 := by
  have h0 := b0.isLt
  have h1 := b1.isLt
  unfold readingOf
  split <;> omega

/-- The low three bits of the second byte are shifted out. -/
theorem readingOf_congr_low_bits (b0 : Byte) {b1 c1 : Byte} (h : b1.toNat / 8 = c1.toNat / 8) :
    readingOf b0 b1 = readingOf b0 c1 := by
  unfold readingOf
  split <;> split <;> omega

/-! ### The reading in degrees -/

/-- A count of sixteenths up to 24 bits is exact in binary32. -/
theorem fl_sixteenths_exact {q : Int} (h : q.natAbs < 2 ^ 24) :
    isFinite (fl (q * 2 ^ 145)) = true ∧ fltReal (fl (q * 2 ^ 145)) = q * 2 ^ 145 := by
  have hnat : (q * 2 ^ 145).natAbs = q.natAbs * 2 ^ 145 := Int.natAbs_mul _ _
  refine fl_exact hnat h ?_
  rw [hnat]
  omega

@[simp] theorem isFinite_fltZero : isFinite fltZero = true := by decide

@[simp] theorem fltReal_fltZero : fltReal fltZero = 0 := by decide

/-- A finite value is below zero exactly where its real is. -/
theorem fltLt_fltZero_eq_decide {v : Flt} (h : isFinite v = true) : fltLt v fltZero = decide (fltReal v < 0) := by
  rw [Bool.eq_iff_iff, fltLt_iff_of_isFinite h isFinite_fltZero, fltReal_fltZero, decide_eq_true_eq]

theorem celsiusReading_exact (b0 b1 : Byte) :
    isFinite (celsiusReading b0 b1) = true ∧ fltReal (celsiusReading b0 b1) = readingOf b0 b1 * 2 ^ 145 := by
  have := readingOf_bounds b0 b1
  exact fl_sixteenths_exact (by omega)

theorem fltLt_celsiusReading (b0 b1 : Byte) :
    fltLt (celsiusReading b0 b1) fltZero = decide (readingOf b0 b1 < 0) := by
  obtain ⟨hfin, hreal⟩ := celsiusReading_exact b0 b1
  rw [fltLt_fltZero_eq_decide hfin, hreal, decide_eq_decide]
  omega

theorem fl_zero : fl 0 = 0 := by decide

/-! ### DEC's outputs -/

theorem decReading_celsius (b0 b1 : Byte) : (decReading (sensorWord b0 b1)).celsius = celsiusReading b0 b1 := by
  rw [decReading_sensorWord]
  rfl

theorem decReading_neg (b0 b1 : Byte) : (decReading (sensorWord b0 b1)).neg = decide (readingOf b0 b1 < 0) := by
  rw [decReading_sensorWord, decide_eq_decide.2 (readingOf_neg_iff b0 b1)]

/-- A reading fits the 13 bits of `dec_q4`. -/
theorem decReading_q4_toInt (b0 b1 : Byte) : (decReading (sensorWord b0 b1)).q4.toInt = readingOf b0 b1 := by
  obtain ⟨hlo, hhi⟩ := readingOf_bounds b0 b1
  rw [decReading_sensorWord]
  exact BitVec.toInt_ofInt_eq_self (by norm_num) (by norm_num; omega) (by norm_num; omega)

/-- Settles O10: a reading fits 13 bits, and so few sixteenths are exact in binary32. -/
theorem readingIsExactAndSigned : Obligations.ReadingIsExactAndSigned := by
  intro s hok
  obtain ⟨hlo, hhi⟩ := readingOf_bounds s.decB0 s.decB1
  obtain ⟨hfin, hreal⟩ := celsiusReading_exact s.decB0 s.decB1
  refine ⟨decReading (sensorWord s.decB0 s.decB1), exec_decode_of_decOk hok, hlo, hhi, decReading_q4_toInt _ _, ?_⟩
  rw [decReading_celsius, decReading_neg]
  refine ⟨hfin, hreal, fun hzero => ?_, rfl, (fltLt_celsiusReading _ _).symm⟩
  rw [celsiusReading, hzero, zero_mul, fl_zero]

/-! ### The two other forms of the decoding rule -/

theorem sixteenths_eq_toInt_div (w : BitVec 16) : sixteenths w = w.toInt / 8 := by
  have := w.isLt
  simp only [sixteenths, decNegFlag_eq_decide, shiftedWord_eq_div, decide_eq_true_eq, offset, BitVec.toInt_eq_toNat_cond]
  split <;> split <;> omega

theorem toInt_extractLsb_eq_toInt_div (w : BitVec 16) : (w.extractLsb 15 3).toInt = w.toInt / 8 := by
  have := w.isLt
  simp only [BitVec.toInt_eq_toNat_cond, BitVec.extractLsb_toNat, Nat.shiftRight_eq_div_pow]
  split <;> split <;> omega

theorem toInt_sshiftRight_eq_toInt_div (w : BitVec 16) : (w.sshiftRight 3).toInt = w.toInt / 8 := by
  rw [BitVec.toInt_sshiftRight, Int.shiftRight_eq_div_pow]
  rfl

/-- Settles O11: each form is the signed word divided by 8 and rounded down. -/
theorem readingHasTwoOtherForms : Obligations.ReadingHasTwoOtherForms := by
  intro w
  rw [toInt_extractLsb_eq_toInt_div, toInt_sshiftRight_eq_toInt_div]
  exact ⟨sixteenths_eq_toInt_div w, sixteenths_eq_toInt_div w, sixteenths_eq_toInt_div w⟩

/-! ### The low bits of the sensor word -/

/-- The mask 0xF8 keeps the five high bits, and `x` fills in below them. -/
theorem replace_low_bits_div (b x : Byte) (hx : x.toNat < 8) : ((b &&& 0xF8) ||| x).toNat / 8 = b.toNat / 8 := by
  have hb : b.toNat / 8 &&& 31 = b.toNat / 8 := by
    have := b.isLt
    rw [Nat.and_two_pow_sub_one_eq_mod _ 5]
    omega
  have hx0 : x.toNat / 8 = 0 := by omega
  calc ((b &&& 0xF8) ||| x).toNat / 8 = ((b.toNat &&& 0xF8) ||| x.toNat) >>> 3 := by
        rw [Nat.shiftRight_eq_div_pow]; rfl
    _ = (b.toNat / 8 &&& 31) ||| x.toNat / 8 := by
        rw [Nat.shiftRight_or_distrib, Nat.shiftRight_and_distrib]; simp only [Nat.shiftRight_eq_div_pow]
    _ = b.toNat / 8 := by rw [hb, hx0, Nat.or_zero]

theorem decReading_congr_low_bits (b0 : Byte) {b1 c1 : Byte} (h : b1.toNat / 8 = c1.toNat / 8) :
    decReading (sensorWord b0 b1) = decReading (sensorWord b0 c1) := by
  rw [decReading_sensorWord, decReading_sensorWord, readingOf_congr_low_bits b0 h]

/-- Settles O12: DEC's outputs depend on the second byte through its quotient by 8 alone. -/
theorem lowBitsIgnored : Obligations.LowBitsIgnored := by
  rintro s _ x hok hx rfl
  refine ⟨_, exec_decode_of_decOk hok, ?_⟩
  rw [← decReading_congr_low_bits s.decB0 (replace_low_bits_div s.decB1 x hx)]
  exact exec_decode_of_decOk hok

end Sys2Proof.Machine
end

section
/-! R71, R73, R81 to R83 and C10: the scaled integers of ENC. A reading scales exactly, the bias of the difference path
rounds down but for one value, and the digits weigh the scaled integer. -/

namespace Sys2Proof.Machine

/-! ### Exact magnitudes -/

theorem fltUnits_eq_natAbs_fltReal (v : Flt) : fltUnits v = (fltReal v).natAbs := by
  unfold fltReal
  split <;> omega

theorem fl_nat_exact {n sig k : Nat} (hn : n = sig * 2 ^ k) (hs : sig < 2 ^ 24) (hlt : n < 2 ^ (24 + 253)) :
    isFinite (fl (n : Int)) = true ∧ fltUnits (fl (n : Int)) = n := by
  obtain ⟨hfin, hreal⟩ := fl_exact (n := (n : Int)) hn hs hlt
  rw [fltUnits_eq_natAbs_fltReal, hreal]
  exact ⟨hfin, Int.natAbs_natCast n⟩

/-! ### Readings -/

theorem fltUnits_fl_sixteenths {q : Int} (h : q.natAbs < 2 ^ 24) : fltUnits (fl (q * 2 ^ 145)) = q.natAbs * 2 ^ 145 := by
  rw [fltUnits_eq_natAbs_fltReal, (fl_sixteenths_exact h).2]
  exact Int.natAbs_mul _ _

/-- The scaled magnitude of a reading has at most 24 bits, so `Scale` does not round it. -/
theorem scaled_reading_exact {q : Int} (h : q.natAbs ≤ 4096) :
    isFinite (scaled (fl (q * 2 ^ 145))) = true ∧
      fltUnits (scaled (fl (q * 2 ^ 145))) = 1000 * q.natAbs * 2 ^ 145 := by
  have hprod : q.natAbs * 2 ^ 145 * scale = 1000 * q.natAbs * 2 ^ 145 := by rw [scale]; ring
  rw [scaled, fltAbs_units, fltUnits_fl_sixteenths (by omega), hprod]
  exact fl_nat_exact rfl (by omega) (by omega)

/-- Half of one is eight sixteenths, so the biased sum has at most 24 bits too. -/
theorem biased_reading_exact {q : Int} (h : q.natAbs ≤ 4096) :
    fltUnits (biased (scaled (fl (q * 2 ^ 145)))) = (1000 * q.natAbs + 8) * 2 ^ 145 := by
  have hsum : 1000 * q.natAbs * 2 ^ 145 + 2 ^ 148 = (1000 * q.natAbs + 8) * 2 ^ 145 := by ring
  rw [biased_eq_fl, (scaled_reading_exact h).2, hsum]
  exact (fl_nat_exact rfl (by omega) (by omega)).2

theorem encodable_reading {q : Int} (h : q.natAbs ≤ 4096) : encodable (fl (q * 2 ^ 145)) = true :=
  Bool.and_eq_true_iff.2 ⟨(fl_sixteenths_exact (by omega)).1, (scaled_reading_exact h).1⟩

theorem scaledInteger_plain_reading {q : Int} (h : q.natAbs ≤ 4096) :
    scaledInteger .plain (fl (q * 2 ^ 145)) = 125 * q.natAbs / 2 := by
  rw [scaledInteger, fltTrunc, (scaled_reading_exact h).2, unitsPerOne]
  omega

theorem scaledInteger_difference_reading {q : Int} (h : q.natAbs ≤ 4096) :
    scaledInteger .difference (fl (q * 2 ^ 145)) = (125 * q.natAbs + 1) / 2 := by
  rw [scaledInteger, fltTrunc, biased_reading_exact h, unitsPerOne]
  omega

/-- Settles O17: no rounding of a reading's scaled or biased magnitude cuts a bit off. -/
theorem readingsScaleExactly : Obligations.ReadingsScaleExactly := by
  intro q hlo hhi
  have hq : q.natAbs ≤ 4096 := by omega
  exact ⟨encodable_reading hq, scaledInteger_plain_reading hq, scaledInteger_difference_reading hq⟩

/-! ### Truncation after rounding -/

theorem fltTrunc_fl {n : Nat} (hk : excessBits n ≤ 149) (hlt : n < 2 ^ 173) :
    fltTrunc (fl (n : Int)) = roundEven n (excessBits n) / 2 ^ (149 - excessBits n) := by
  have hunits := (fl_of_lt_overflow (n := (n : Int)) (by rw [Int.natAbs_natCast]; omega)).2.1
  have hpow : unitsPerOne = 2 ^ (149 - excessBits n) * 2 ^ excessBits n := by
    rw [unitsPerOne, ← pow_add, Nat.sub_add_cancel hk]
  rw [fltTrunc, hunits, Int.natAbs_natCast, hpow, Nat.mul_div_mul_right _ _ (by positivity)]

/-- Rounding changes the truncated value only by rounding up to a whole number, from at most half a unit in the last place
below it. -/
theorem exists_whole_of_fltTrunc_ne {n : Nat} (hk : excessBits n ≤ 149) (hlt : n < 2 ^ 173)
    (h : fltTrunc (fl (n : Int)) ≠ n / 2 ^ 149) :
    ∃ c, n < c * 2 ^ 149 ∧ 2 * (c * 2 ^ 149) ≤ 2 * n + 2 ^ excessBits n := by
  have hpow : 2 ^ 149 = 2 ^ excessBits n * 2 ^ (149 - excessBits n) := by rw [← pow_add, Nat.add_sub_cancel' hk]
  rw [fltTrunc_fl hk hlt, hpow, ← Nat.div_div_eq_div_mul] at h
  unfold roundEven at h
  split at h
  case isFalse => exact absurd rfl h
  case isTrue hup =>
    have hrem := Nat.div_add_mod' n (2 ^ excessBits n)
    have hmod := Nat.mod_lt n (show 0 < 2 ^ excessBits n by positivity)
    obtain ⟨c, hc⟩ : 2 ^ (149 - excessBits n) ∣ n / 2 ^ excessBits n + 1 := by
      by_contra hdvd
      rw [Nat.succ_div, if_neg hdvd] at h
      exact h rfl
    have hwhole : c * 2 ^ 149 = n / 2 ^ excessBits n * 2 ^ excessBits n + 2 ^ excessBits n := by
      rw [hpow, ← Nat.succ_mul, Nat.succ_eq_add_one, hc]
      ring
    exact ⟨c, by omega, by omega⟩

/-! ### The rounding bias -/

/-- Below one half the biased sum is rounded up to 1 only from the greatest value below one half (C10). -/
theorem eq_of_whole_of_lt_half {p : Flt} (hsign : fltSign p = false) (hp : fltUnits p < 2 ^ 148) {c : Nat}
    (hbelow : fltUnits p + 2 ^ 148 < c * 2 ^ 149)
    (hnear : 2 * (c * 2 ^ 149) ≤ 2 * (fltUnits p + 2 ^ 148) + 2 ^ 125) : p = 0x3EFFFFFF := by
  have hpos : p.toNat % 2 ^ 31 = p.toNat := by
    rw [fltSign_eq_decide, decide_eq_false_iff_not] at hsign
    omega
  have hlast : fltUnits 0x3EFFFFFF = 2 ^ 148 - 2 ^ 124 := by decide
  have hhalf : fltUnits 0x3F000000 = 2 ^ 148 := by decide
  have hge : fltUnits 0x3EFFFFFF ≤ fltUnits p := by omega
  have hlt : fltUnits p < fltUnits 0x3F000000 := by omega
  rw [fltUnits_eq_magnitudeUnits, fltUnits_eq_magnitudeUnits, hpos] at hge hlt
  rw [magnitudeUnits_strictMono.le_iff_le] at hge
  rw [magnitudeUnits_strictMono.lt_iff_lt] at hlt
  exact BitVec.eq_of_toNat_eq (Nat.le_antisymm (Nat.le_of_lt_succ hlt) hge)

/-- A sum of a significand and one half, counted in units in the last place of the significand of which `2 * half` make
one, is not rounded up to a whole number `c`: it has one bit too many only where it has just passed `2^24`, and so lies
less than one half above a whole number. -/
theorem no_whole_of_significand {sig half whole c : Nat} (hsig : sig < 2 ^ 24)
    (hcarry : 2 ^ 24 = whole * (2 * half)) (hbelow : sig + half < c * (2 * half))
    (hnear : c * (2 * half) ≤ sig + half + if sig + half < 2 ^ 24 then 0 else 1) : False := by
  split at hnear
  case isTrue => omega
  case isFalse hover =>
    have hc : whole < c := Nat.lt_of_mul_lt_mul_right (a := 2 * half) (by omega)
    have hnext := Nat.mul_le_mul_right (2 * half) hc
    rw [Nat.succ_mul] at hnext
    omega

/-- The excess of a significand of one bit more than 24, scaled. -/
theorem excessBits_scaled_le {s j : Nat} (hs : s < 2 ^ 25) :
    excessBits (s * 2 ^ j) ≤ j + if s < 2 ^ 24 then 0 else 1 := by
  refine excessBits_le ?_
  split
  case isTrue hfit =>
    rw [pow_add]
    exact Nat.mul_lt_mul_of_pos_right hfit (by positivity)
  case isFalse =>
    rw [show 24 + (j + 1) = 25 + j by omega, pow_add]
    exact Nat.mul_lt_mul_of_pos_right hs (by positivity)

/-- From one half on the biased sum is not rounded up to a whole number. -/
theorem no_whole_of_half_le {sig i c : Nat} (hsig : sig < 2 ^ 24) (hi : i ≤ 23)
    (hbelow : sig * 2 ^ (125 + i) + 2 ^ 148 < c * 2 ^ 149)
    (hnear : 2 * (c * 2 ^ 149) ≤
      2 * (sig * 2 ^ (125 + i) + 2 ^ 148) + 2 ^ excessBits (sig * 2 ^ (125 + i) + 2 ^ 148)) : False := by
  have hpos : 0 < 2 ^ (125 + i) := by positivity
  have hhalf : 2 ^ (23 - i) * 2 ^ (125 + i) = 2 ^ 148 := by rw [← pow_add]; congr 1; omega
  have hwhole : c * 2 ^ 149 = c * (2 * 2 ^ (23 - i)) * 2 ^ (125 + i) := by
    rw [mul_assoc, mul_assoc, hhalf]; rfl
  have hcarry : 2 ^ 24 = 2 ^ i * (2 * 2 ^ (23 - i)) := by
    rw [mul_left_comm, ← pow_add, Nat.add_sub_cancel' hi]; rfl
  have hle : 2 ^ (23 - i) ≤ 2 ^ 23 := Nat.pow_le_pow_right (by norm_num) (by omega)
  rw [hwhole, ← hhalf, ← add_mul] at hbelow hnear
  refine no_whole_of_significand hsig hcarry (Nat.lt_of_mul_lt_mul_right hbelow) ?_
  have hk := Nat.pow_le_pow_right (show 0 < 2 by norm_num)
    (excessBits_scaled_le (j := 125 + i) (show sig + 2 ^ (23 - i) < 2 ^ 25 by omega))
  generalize 2 ^ (23 - i) = half at *
  generalize excessBits ((sig + half) * 2 ^ (125 + i)) = k at *
  refine Nat.le_of_mul_le_mul_right ?_ hpos
  split at hk
  case isTrue hfit =>
    rw [if_pos hfit, add_zero]
    rw [add_zero] at hk
    have htwice : 2 * (c * (2 * half)) * 2 ^ (125 + i) ≤ (2 * (sig + half) + 1) * 2 ^ (125 + i) := by
      rw [add_mul, one_mul, mul_assoc 2, mul_assoc 2]
      omega
    have := Nat.le_of_mul_le_mul_right htwice hpos
    exact Nat.mul_le_mul_right _ (by omega)
  case isFalse hover =>
    rw [if_neg hover, add_mul, one_mul]
    rw [pow_succ] at hk
    omega

/-- A value from one half up to 2^23, as a significand that is scaled to at most one half. -/
theorem exists_significand_of_half_le {p : Flt} (hlo : 2 ^ 148 ≤ fltUnits p) (hhi : fltUnits p < 2 ^ 23 * 2 ^ 149) :
    ∃ sig i, sig < 2 ^ 24 ∧ i ≤ 23 ∧ fltUnits p = sig * 2 ^ (125 + i) := by
  obtain ⟨sig, j, hsig, hnorm, hp⟩ := exists_significand p
  have hj : 125 ≤ j := by
    by_contra hj
    have : 2 ^ j ≤ 2 ^ 124 := Nat.pow_le_pow_right (by norm_num) (by omega)
    have : sig * 2 ^ j < 2 ^ 24 * 2 ^ j := Nat.mul_lt_mul_of_pos_right hsig (by positivity)
    omega
  have hj' : j ≤ 148 := by
    by_contra hj'
    have : 2 ^ 149 ≤ 2 ^ j := Nat.pow_le_pow_right (by norm_num) (by omega)
    have : 2 ^ 23 * 2 ^ j ≤ sig * 2 ^ j := Nat.mul_le_mul_right _ (hnorm (by omega))
    omega
  exact ⟨sig, j - 125, hsig, by omega, by rw [hp, Nat.add_sub_cancel' hj]⟩

/-- The bias rounds down but for the greatest value below one half. -/
theorem fltTrunc_biased_of_ne {p : Flt} (hsign : fltSign p = false) (hp : fltUnits p < 2 ^ 23 * 2 ^ 149)
    (hne : p ≠ 0x3EFFFFFF) : fltTrunc (biased p) = (fltUnits p + 2 ^ 148) / 2 ^ 149 := by
  rw [biased_eq_fl]
  have hk : excessBits (fltUnits p + 2 ^ 148) ≤ 149 := excessBits_le (by omega)
  by_contra hround
  obtain ⟨c, hbelow, hnear⟩ := exists_whole_of_fltTrunc_ne hk (by omega) hround
  rcases Nat.lt_or_ge (fltUnits p) (2 ^ 148) with hsmall | hlarge
  case inl =>
    have hexp : 2 ^ excessBits (fltUnits p + 2 ^ 148) ≤ 2 ^ 125 :=
      Nat.pow_le_pow_right (by norm_num) (excessBits_le (by omega))
    exact hne (eq_of_whole_of_lt_half hsign hsmall hbelow (by omega))
  case inr =>
    obtain ⟨sig, i, hsig, hi, hunits⟩ := exists_significand_of_half_le hlarge hp
    rw [hunits] at hbelow hnear
    exact no_whole_of_half_le hsig hi hbelow hnear

/-- Settles O16: `fltTrunc_biased_of_ne`, and the one exception by evaluation. -/
theorem biasRoundsDownExceptOnce : Obligations.BiasRoundsDownExceptOnce := by
  refine fun p hsign _ hp => ⟨fltTrunc_biased_of_ne hsign hp, ?_⟩
  rintro rfl
  decide

/-! ### Digits -/

theorem weightedSum_encRendered (cfg : Config) (path : EncPath) (u : TempUnit) (neg : Bool) (m : Nat) :
    weightedSum (encRendered cfg path u neg m) = m % 100000 := by
  change 10000 * (digitAt m 10000).toNat + 1000 * (digitAt m 1000).toNat + 100 * (digitAt m 100).toNat +
    10 * (digitAt m 10).toNat + (digitAt m 1).toNat = _
  simp only [digitAt_toNat]
  omega

/-- Settles O15: the digits weigh `m % 100000`, and without overflow `m` has at most five digits. -/
theorem digitsWeighScaledInteger : Obligations.DigitsWeighScaledInteger := by
  intro u s path hv
  have hout : encOutput s.config path s.encV u =
      encRendered s.config path u (encNegFlag s.encV) (scaledInteger path s.encV) := if_pos hv
  refine ⟨_, exec_encInstr path u s, ?_, fun hovf => ?_⟩
  · rw [hout, weightedSum_encRendered]
  · rw [hout] at hovf
    have hfit : ¬scaledInteger path s.encV > 99999 := of_decide_eq_false hovf
    rw [hout, weightedSum_encRendered]
    omega

/-! ### The unit -/

/-- ENC's unit selects the glyph of the unit position and nothing else (R78). -/
theorem encOutput_unit (cfg : Config) (path : EncPath) (v : Flt) (u u' : TempUnit) :
    encOutput cfg path v u' = { encOutput cfg path v u with useg := unitSeg cfg u' } := by
  unfold encOutput
  split <;> rfl

/-- Settles O18, by `encOutput_unit`. -/
theorem unitSelectsGlyphOnly : Obligations.UnitSelectsGlyphOnly := by
  refine fun s path => ⟨encOutput s.config path s.encV .celsius, _, _, lut_unitGlyph s.config .celsius,
    lut_unitGlyph s.config .fahrenheit, ?_, ?_⟩
  · rw [exec_encInstr, ← encOutput_unit]
  · rw [exec_encInstr, ← encOutput_unit]

end Sys2Proof.Machine
end

section
/-! R53 to R56 and R85: SEGLUT's answers, the segments that a pattern lights, and the default table. -/

namespace Sys2Proof.Machine

/-! ### SEGLUT -/

/-- Settles O20: each kind of index by the table's entry for it. -/
theorem segLutLooksUpOrRefuses : Obligations.SegLutLooksUpOrRefuses := by
  refine ⟨decode_eq_ok_segLut_iff, fun s => ⟨fun hentry => ?entry, fun hblank => ?blank,
    fun k seg hindex hletter => ?letter, fun k hindex hnone => ?refused⟩⟩
  case entry => exact exec_segLut_of_some (lut_entry s.config hentry)
  case blank => exact exec_segLut_of_some (by rw [hblank, lut_blank])
  case letter => exact exec_segLut_of_some (by rw [lut_letter s.config hindex, hletter])
  case refused => exact ⟨exec_segLut_of_none (by rw [lut_letter s.config hindex, hnone]), rfl, rfl⟩

/-! ### Segments -/

theorem lights_blank (cfg : Config) (seg : Segment) : lights cfg 0xFF seg = false := by
  have hbit : ∀ i : Fin 8, (0xFF : SegPattern).getLsbD i.val = true := by decide
  rw [lights, hbit, Bool.not_true]

theorem lights_zero (cfg : Config) (seg : Segment) : lights cfg 0x00 seg = true := by
  simp [lights]

/-- Settles O22: whatever bit the assignment gives a segment, it is set in 0xFF and clear in 0x00. -/
theorem blankLightsNothing : Obligations.BlankLightsNothing := fun cfg seg => ⟨lights_blank cfg seg, lights_zero cfg seg⟩

/-- R56's list, glyph by glyph. -/
theorem lights_drawn_defaultConfig (g : Fin 14) (seg : Segment) :
    lights defaultConfig (drawn defaultConfig (BitVec.ofNat 5 g.val)) seg = true ↔ seg ∈ listedSegments g.val := by
  revert g
  cases seg <;> decide

/-- Settles O23: the indices up to 13 all have an entry, which `lights_drawn_defaultConfig` compares with R56. -/
theorem defaultTableLightsListedSegments : Obligations.DefaultTableLightsListedSegments := by
  refine fun g seg => ⟨_, lut_eq_drawn defaultConfig ?_, lights_drawn_defaultConfig g seg⟩
  rw [BitVec.toNat_ofNat]
  omega

end Sys2Proof.Machine
end

section
/-! R88: PWMMAP turns exactly one channel on for every input that is not a NaN. -/

namespace Sys2Proof.Machine

/-- Every input gives the outputs of one of the four cases of R87. -/
theorem pwmOutput_cases (d : Flt) :
    (isNaN d = true ∧ pwmOutput d = pwmInvalid) ∨
      (isNaN d = false ∧
        ((fltLt d fltZero = true ∧ fltEq d fltZero = false ∧ pwmOutput d = pwmDuties dutyFull 0 0) ∨
          (fltLt d fltZero = false ∧ fltEq d fltZero = true ∧ pwmOutput d = pwmDuties 0 dutyMin 0) ∨
          (fltLt d fltZero = false ∧ fltEq d fltZero = false ∧ pwmOutput d = pwmDuties 0 0 dutyFull))) := by
  cases hnan : isNaN d with
  | true => exact .inl ⟨rfl, pwmOutput_of_isNaN hnan⟩
  | false =>
    rw [pwmOutput_of_not_isNaN hnan, fltLt_eq_decide hnan isNaN_fltZero, fltEq_eq_decide hnan isNaN_fltZero,
      fltKey_fltZero]
    rcases lt_trichotomy (fltKey d) 0 with h | h | h
    · exact .inr ⟨rfl, .inl ⟨decide_eq_true h, decide_eq_false h.ne, if_pos h⟩⟩
    · exact .inr ⟨rfl, .inr (.inl ⟨decide_eq_false h.not_lt, decide_eq_true h, by rw [if_neg h.not_lt, if_pos h]⟩)⟩
    · exact .inr ⟨rfl, .inr (.inr ⟨decide_eq_false h.not_gt, decide_eq_false h.ne',
        by rw [if_neg h.not_gt, if_neg h.ne']⟩)⟩

/-- Settles O26: in each case of R87 the duties are written out. -/
theorem oneChannelForEveryNumber : Obligations.OneChannelForEveryNumber := by
  refine fun s => ⟨_, exec_pwmMap_of_pwmOutput rfl, ?_⟩
  change (_ → _ ∧ (_ ↔ fltEq s.pwmD fltZero = true) ∧ (_ ↔ fltLt s.pwmD fltZero = true)) ∧ _
  obtain ⟨hnan, hout⟩ | ⟨hnan, ⟨hlt, heq, hout⟩ | ⟨hlt, heq, hout⟩ | ⟨hlt, heq, hout⟩⟩ := pwmOutput_cases s.pwmD
  · rw [hnan, hout]
    exact ⟨nofun, rfl⟩
  all_goals
    rw [hnan, hout, hlt, heq]
    exact ⟨fun _ => by decide, rfl⟩

end Sys2Proof.Machine
end

section
/-! R14, R36, R40, R93, R99 and R103: what every operation of the block has in common. -/

namespace Sys2Proof.Machine

/-! ### What an operation can answer -/

/-- The indices below 14 all have an entry. -/
theorem lut_eq_none_index {cfg : Config} {g : GlyphIndex} (h : lut cfg g = none) : 14 ≤ g.toNat := by
  by_contra hlt
  rw [lut_eq_drawn cfg (by omega)] at h
  cases h

theorem exec_ne_fault (i : Instr) (s : State) (f : Fault) : exec i s ≠ .fault f := by
  cases i with
  | decode => rw [exec_decode]; nofun
  | encPlain u => rw [exec_encPlain]; nofun
  | encDiff u => rw [exec_encDiff]; nofun
  | segLut =>
    cases hl : lut s.config s.lutG with
    | none => rw [exec_segLut_of_none hl]; nofun
    | some seg => rw [exec_segLut_of_some hl]; nofun
  | pwmMap => rw [exec_pwmMap]; nofun

/-- What every operation leaves unchanged. -/
structure SameButResults (s s' : State) : Prop where
  config : s'.config = s.config
  host : s'.host = s.host
  program : s'.program = s.program
  draws : s'.draws = s.draws
  sel : s'.sel = s.sel
  decB0 : s'.decB0 = s.decB0
  decB1 : s'.decB1 = s.decB1
  decOk : s'.decOk = s.decOk
  encV : s'.encV = s.encV
  lutG : s'.lutG = s.lutG
  pwmD : s'.pwmD = s.pwmD

theorem sameButResults_of_exec {i : Instr} {s s' : State} (h : exec i s = .next s') : SameButResults s s' := by
  obtain ⟨rfl, rfl⟩ | ⟨u, rfl, rfl⟩ | ⟨u, rfl, rfl⟩ | ⟨seg, rfl, -, rfl⟩ | ⟨rfl, rfl⟩ := exec_eq_next h <;>
    constructor <;> rfl

/-- Settles O28: the program is in the frame of every operation, and `exec_eq_refused` gives the one refusal. -/
theorem noOperationTraps : Obligations.NoOperationTraps := by
  refine fun i s => ⟨exec_ne_fault i s, fun _ h => (sameButResults_of_exec h).program, fun r h => ?_⟩
  obtain ⟨hi, hnone, hr⟩ := exec_eq_refused h
  exact ⟨hi, hr, lut_eq_none_index hnone, hnone⟩

/-- Settles O31: the common frame, and the results of the other units in each arm. -/
theorem operationFrame : Obligations.OperationFrame := by
  intro i s s' h
  obtain ⟨hcfg, hhost, hprog, hdraws, hsel, hb0, hb1, hok, hv, hg, hd⟩ := sameButResults_of_exec h
  refine ⟨⟨hcfg, hhost, hprog, hdraws, hsel, hb0, hb1, hok, hv, hg, hd⟩, ?_⟩
  obtain ⟨rfl, rfl⟩ | ⟨u, rfl, rfl⟩ | ⟨u, rfl, rfl⟩ | ⟨seg, rfl, -, rfl⟩ | ⟨rfl, rfl⟩ := exec_eq_next h <;>
    simp [unitOf]

/-! ### Two operations, one after the other -/

/-- An answer whose next state, if it has one, is updated. -/
def mapNext (f : State → State) : Host.Outcome State Fault Refusal → Host.Outcome State Fault Refusal
  | .next s => .next (f s)
  | .fault r => .fault r
  | .refused r => .refused r

theorem mapNext_eq_next {f : State → State} {r : Host.Outcome State Fault Refusal} {s' : State} :
    mapNext f r = .next s' ↔ ∃ t, r = .next t ∧ f t = s' := by
  cases r <;> simp [mapNext]

/-- What an operation `i` does to a state: an update that no other operation of its unit sees, and that an operation of
another unit neither sees nor undoes. -/
structure UnitUpdate (i : Instr) (f : State → State) : Prop where
  same_unit : ∀ j t, unitOf i = unitOf j → exec j (f t) = exec j t
  other_unit : ∀ j t, unitOf i ≠ unitOf j → exec j (f t) = mapNext f (exec j t)

/-- SEGLUT depends on its index and the configuration alone, and keeps every update that does not touch LUT's result. -/
theorem exec_segLut_update {f : State → State} {t : State} (hcfg : (f t).config = t.config) (hg : (f t).lutG = t.lutG)
    (hf : ∀ o, driveLut o (f t) = f (driveLut o t)) : exec .segLut (f t) = mapNext f (exec .segLut t) := by
  cases hl : lut t.config t.lutG with
  | none =>
    rw [exec_segLut_of_none hl, exec_segLut_of_none (by rw [hcfg, hg, hl]), hg]
    rfl
  | some seg =>
    rw [exec_segLut_of_some hl, exec_segLut_of_some (s := f t) (by rw [hcfg, hg, hl]), hf]
    rfl

theorem exec_segLut_driveLut (o : LutOut) (t : State) : exec .segLut (driveLut o t) = exec .segLut t := by
  cases hl : lut t.config t.lutG with
  | none => rw [exec_segLut_of_none hl, exec_segLut_of_none (s := driveLut o t) hl, driveLut_lutG]
  | some seg =>
    rw [exec_segLut_of_some hl, exec_segLut_of_some (s := driveLut o t) hl]
    rfl

theorem unitUpdate_driveDec (o : DecOut) : UnitUpdate .decode (driveDec o) where
  same_unit j _ h := by
    cases j with
    | decode => rfl
    | _ => cases h
  other_unit j _ h := by
    cases j with
    | decode => exact absurd rfl h
    | segLut => exact exec_segLut_update rfl rfl fun _ => rfl
    | _ => rfl

theorem unitUpdate_driveEnc {i : Instr} (hi : unitOf i = .enc) (o : EncOut) (u : TempUnit) (path : EncPath) :
    UnitUpdate i fun t => driveEnc o (driveEncSelect u path t) where
  same_unit j _ h := by
    rw [hi] at h
    cases j with
    | encPlain _ | encDiff _ => rfl
    | _ => cases h
  other_unit j _ h := by
    rw [hi] at h
    cases j with
    | encPlain _ | encDiff _ => exact absurd rfl h
    | segLut =>
      exact exec_segLut_update (f := fun t => driveEnc o (driveEncSelect u path t)) rfl rfl fun _ => rfl
    | _ => rfl

theorem unitUpdate_driveLut (o : LutOut) : UnitUpdate .segLut (driveLut o) where
  same_unit j t h := by
    cases j with
    | segLut => exact exec_segLut_driveLut o t
    | _ => cases h
  other_unit j _ h := by
    cases j with
    | segLut => exact absurd rfl h
    | _ => rfl

theorem unitUpdate_drivePwm (o : PwmOut) : UnitUpdate .pwmMap (drivePwm o) where
  same_unit j _ h := by
    cases j with
    | pwmMap => rfl
    | _ => cases h
  other_unit j _ h := by
    cases j with
    | pwmMap => exact absurd rfl h
    | segLut => exact exec_segLut_update rfl rfl fun _ => rfl
    | _ => rfl

/-- An operation that goes on makes an update of its unit, the same one wherever it has the same operands. -/
theorem exists_unitUpdate {i : Instr} {s s' : State} (h : exec i s = .next s') :
    ∃ f, UnitUpdate i f ∧ s' = f s ∧ ∀ t, SameOperands i s t → exec i t = .next (f t) := by
  obtain ⟨rfl, rfl⟩ | ⟨u, rfl, rfl⟩ | ⟨u, rfl, rfl⟩ | ⟨seg, rfl, hseg, rfl⟩ | ⟨rfl, rfl⟩ := exec_eq_next h
  · refine ⟨_, unitUpdate_driveDec _, rfl, fun t hst => ?_⟩
    rw [exec_decode, sensorOperand_eq_of_sameOperands hst]
  · refine ⟨_, unitUpdate_driveEnc rfl _ u .plain, rfl, fun t hst => ?_⟩
    obtain ⟨hcfg, hv⟩ := hst
    rw [exec_encPlain, hcfg, hv]
  · refine ⟨_, unitUpdate_driveEnc rfl _ u .difference, rfl, fun t hst => ?_⟩
    obtain ⟨hcfg, hv⟩ := hst
    rw [exec_encDiff, hcfg, hv]
  · refine ⟨_, unitUpdate_driveLut _, rfl, fun t hst => ?_⟩
    obtain ⟨hcfg, hg⟩ := hst
    exact exec_segLut_of_some (by rw [← hcfg, ← hg, hseg])
  · refine ⟨_, unitUpdate_drivePwm _, rfl, fun t hst => ?_⟩
    obtain ⟨-, hd⟩ := hst
    rw [exec_pwmMap, hd]

/-- No operation writes an operand of any operation. -/
theorem SameButResults.sameOperands {s s' : State} (h : SameButResults s s') (i : Instr) : SameOperands i s s' := by
  refine ⟨h.config.symm, ?_⟩
  cases i with
  | decode => exact ⟨h.decB0.symm, h.decB1.symm, h.decOk.symm⟩
  | encPlain _ | encDiff _ => exact h.encV.symm
  | segLut => exact h.lutG.symm
  | pwmMap => exact h.pwmD.symm

/-- Settles O30: the earlier operation's update is not seen. -/
theorem lastOperationOfUnitWins : Obligations.LastOperationOfUnitWins := by
  intro i j s s₁ hij h
  obtain ⟨f, hf, rfl, -⟩ := exists_unitUpdate h
  exact hf.same_unit j s hij

/-- Settles O29: the first operation's update passes over the second operation, which leaves the first one's operands. -/
theorem operationsOfUnitsCommute : Obligations.OperationsOfUnitsCommute := by
  intro i j s s₁ s₂ hij hi hj
  obtain ⟨f, hf, rfl, hsame⟩ := exists_unitUpdate hi
  rw [hf.other_unit j s hij, mapNext_eq_next] at hj
  obtain ⟨t₁, ht₁, rfl⟩ := hj
  exact ⟨t₁, ht₁, hsame t₁ ((sameButResults_of_exec ht₁).sameOperands i)⟩

end Sys2Proof.Machine
end

section
/-! R40, R15, R26 and R113: what one step can do, and from that the order of the program, the configuration and
Baseline. -/

namespace Sys2Proof.Machine

/-! ### Steps that issue a selector -/

theorem step_of_operation {s : State} {sel : Sel} {rest : List HostStep} (hp : s.program = .operation sel :: rest) :
    step s = runSelector sel (presentSel sel (withProgram rest s)) :=
  step_of_cons hp

theorem runSelector_of_ok {sel : Sel} {i : Instr} (h : decode sel = .ok i) (s : State) :
    runSelector sel s = exec i s := by
  rw [runSelector, h]

theorem runSelector_of_error {sel : Sel} {e : DecodeError} (h : decode sel = .error e) (s : State) :
    runSelector sel s = .refused (.selReserved sel) := by
  rw [runSelector, h]

/-- The host notes a DECODE exactly when the selector names one. -/
theorem beq_encode_decode_of_ok {sel : Sel} {i : Instr} (h : decode sel = .ok i) :
    (sel == encode .decode) = decide (i = .decode) := by
  have hiff : sel = encode .decode ↔ i = .decode := by
    rw [← decode_eq_ok_iff, h, Except.ok.injEq]
  rw [Bool.eq_iff_iff, beq_iff_eq, decide_eq_true_eq, hiff]

/-- Settles O32: the selector is presented, decoded and run. -/
theorem stepRunsDecodedOperation : Obligations.StepRunsDecodedOperation := by
  intro s sel rest i hp hi
  rw [step_of_operation hp, runSelector_of_ok hi, ← beq_encode_decode_of_ok hi]
  rfl

/-- Settles O33: a reserved value decodes to no operation. -/
theorem reservedSelectorStopsRun : Obligations.ReservedSelectorStopsRun := by
  intro s sel rest hp hmem
  rw [step_of_operation hp, runSelector_of_error ((reservedSelectorsRefused sel).2 hmem)]
  exact ⟨rfl, rfl, rfl⟩

/-! ### The host's own steps -/

/-- What a step of the host's own that goes on does to a state from whose program it is already removed: one rule for each
way in which it can go on. -/
inductive HostTakes : HostStep → State → State → Prop
  | presentSensor (b0 b1 : Byte) (ok : Bool) (s : State) :
      HostTakes (.presentSensor b0 b1 ok) s (presentSensor b0 b1 ok s)
  | presentValue (v : Flt) (s : State) : HostTakes (.presentValue v) s (presentValue v s)
  | presentGlyph (g : GlyphIndex) (s : State) : HostTakes (.presentGlyph g) s (presentGlyph g s)
  | presentDifference (d : Flt) (s : State) : HostTakes (.presentDifference d) s (presentDifference d s)
  | temperatureRead (b0 b1 : Byte) (s : State) :
      HostTakes (.memRead tempReg 2 (some [b0, b1])) s
        (Machine.presentSensor b0 b1 true (withHost (putRead tempReg 2 s.host) s))
  | temperatureReadFailed (s : State) :
      HostTakes (.memRead tempReg 2 none) s (presentFailedRead (withHost (putRead tempReg 2 s.host) s))
  | identityRead (b : Byte) (s : State) :
      HostTakes (.memRead idReg 1 (some [b])) s (withHost (logIdentity b (putRead idReg 1 s.host)) s)
  | identityReadFailed (s : State) :
      HostTakes (.memRead idReg 1 none) s (withHost (putRead idReg 1 s.host) s)
  | goOn (n : Nat) {c : Flt} {s : State} (hc : readCelsius s = .ok (some c)) : HostTakes (.skipUnlessReading n) s s
  | skip (n : Nat) {s : State} (hc : readCelsius s = .ok none) :
      HostTakes (.skipUnlessReading n) s (withProgram (s.program.drop n) (withHost (surfaceReadError s.host) s))
  | passCelsius {c : Flt} {s : State} (hc : readCelsius s = .ok (some c)) :
      HostTakes .passCelsius s (Machine.presentValue c s)
  | passFahrenheit {c : Flt} {s : State} (hc : readCelsius s = .ok (some c)) :
      HostTakes .passFahrenheit s (Machine.presentValue (Config.toFahrenheit c) s)
  | takeSample {c : Flt} {s : State} (hc : readCelsius s = .ok (some c)) :
      HostTakes .takeSample s (withHost (addSample c s.host) s)
  | passDifference {c : Flt} {s : State} (hdiff : s.host.inDifference = true) (hc : readCelsius s = .ok (some c)) :
      HostTakes .passDifference s
        (withHostDraw s.host
          (Machine.presentDifference (Config.hostDifference s.draws s.host.baseline c)
            (Machine.presentValue (Config.hostDifference s.draws s.host.baseline c) s)))
  | surfaceError {h : HostStep} {s : State}
      (hh : h ∈ [HostStep.passCelsius, .passFahrenheit, .takeSample, .passDifference])
      (hc : readCelsius s = .ok none) :
      HostTakes h s (withHost (surfaceReadError s.host) s)
  | setBaseline {s : State} (hmode : s.host.mode = .calibrate) (hdiff : s.host.inDifference = false)
      (hlen : s.host.samples.length = averageCount) :
      HostTakes .setBaseline s
        (withHostDraw { s.host with baseline := Config.hostMean s.draws s.host.samples, samples := [] } s)
  | passBaseline (s : State) : HostTakes .passBaseline s (Machine.presentValue s.host.baseline s)
  | writeDisplay {o : EncOut} {s : State} (ho : readEnc s = .ok o) :
      HostTakes .writeDisplay s
        (withHost { s.host with display := displayed o s.host.display, dpMask := displayMask o } s)
  | writeDuties {o : PwmOut} {s : State} (ho : readPwm s = .ok o) :
      HostTakes .writeDuties s (withHost { s.host with duty := dutiesOf o } s)
  | writeGlyph (p : Fin 9) {o : LutOut} {s : State} (ho : readLut s = .ok o) :
      HostTakes (.writeGlyph p) s (withHost { s.host with display := s.host.display.set p.val o.seg } s)
  | button (code : Nat) (s : State) : HostTakes (.button code) s (button code s)
  | tick (reply : Option (Byte × Byte)) (aux : TempUnit) (s : State) :
      HostTakes (.tick reply aux) s (enqueue (tickSteps s.host reply aux) s)
  | baselineAction (replies : Vector (Option (Byte × Byte)) 30) (s : State) :
      HostTakes (.baselineAction replies) s (enqueue (baselineActionSteps s.host replies) s)

theorem hostTakes_memRead {reg : Byte} {n : Nat} {reply : Option (List Byte)} {s s' : State}
    (h : memRead reg n reply s = .next s') : HostTakes (.memRead reg n reply) s s' := by
  obtain ⟨b0, b1, rfl, rfl, rfl, rfl⟩ | ⟨rfl, rfl, rfl, rfl⟩ | ⟨b, rfl, rfl, rfl, rfl⟩ | ⟨rfl, rfl, rfl, rfl⟩ :=
    memRead_eq_next h
  · exact .temperatureRead b0 b1 s
  · exact .temperatureReadFailed s
  · exact .identityRead b s
  · exact .identityReadFailed s

/-- A step that uses the reading follows the rule for its use or the one for the read error. -/
theorem hostTakes_withReading {h : HostStep} {s s' : State} {k : Flt → State}
    (hh : h ∈ [HostStep.passCelsius, .passFahrenheit, .takeSample, .passDifference])
    (huse : ∀ c, readCelsius s = .ok (some c) → HostTakes h s (k c)) (hnext : withReading s k = .next s') :
    HostTakes h s s' := by
  obtain ⟨c, hc, rfl⟩ | ⟨hc, rfl⟩ := withReading_eq_next.1 hnext
  · exact huse c hc
  · exact .surfaceError hh hc

theorem hostTakes_passDifference {s s' : State} (h : passDifference s = .next s') :
    HostTakes .passDifference s s' := by
  unfold passDifference at h
  split at h
  · rename_i hdiff
    exact hostTakes_withReading (by simp) (fun _ hc => .passDifference hdiff hc) h
  · cases h

theorem hostTakes_setBaseline {s s' : State} (h : setBaseline s = .next s') : HostTakes .setBaseline s s' := by
  unfold setBaseline at h
  split at h
  · rename_i hready
    obtain ⟨hmode, hdiff, hlen⟩ := hready
    cases h
    exact .setBaseline hmode hdiff hlen
  · cases h

/-- Every step of the host's own that goes on follows one of the rules. -/
theorem hostTakes_of_runHostStep {h : HostStep} {s s' : State} (hr : runHostStep h s = .hostStep (.next s')) :
    HostTakes h s s' := by
  cases h with
  | operation sel => cases hr
  | presentSensor b0 b1 ok => cases hr; exact .presentSensor b0 b1 ok s
  | presentValue v => cases hr; exact .presentValue v s
  | presentGlyph g => cases hr; exact .presentGlyph g s
  | presentDifference d => cases hr; exact .presentDifference d s
  | memRead reg n reply => exact hostTakes_memRead (Issue.hostStep.inj hr)
  | skipUnlessReading n =>
    obtain ⟨c, hc, rfl⟩ | ⟨hc, rfl⟩ := skipUnlessReading_eq_next.1 (Issue.hostStep.inj hr)
    · exact .goOn n hc
    · exact .skip n hc
  | passCelsius => exact hostTakes_withReading (by simp) (fun _ hc => .passCelsius hc) (Issue.hostStep.inj hr)
  | passFahrenheit => exact hostTakes_withReading (by simp) (fun _ hc => .passFahrenheit hc) (Issue.hostStep.inj hr)
  | takeSample => exact hostTakes_withReading (by simp) (fun _ hc => .takeSample hc) (Issue.hostStep.inj hr)
  | setBaseline => exact hostTakes_setBaseline (Issue.hostStep.inj hr)
  | passBaseline => cases hr; exact .passBaseline s
  | passDifference => exact hostTakes_passDifference (Issue.hostStep.inj hr)
  | writeDisplay =>
    obtain ⟨o, ho, hnext⟩ := withRead_eq_next.1 (Issue.hostStep.inj hr)
    cases hnext
    exact .writeDisplay ho
  | writeDuties =>
    obtain ⟨o, ho, hnext⟩ := withRead_eq_next.1 (Issue.hostStep.inj hr)
    cases hnext
    exact .writeDuties ho
  | writeGlyph p =>
    obtain ⟨o, ho, hnext⟩ := withRead_eq_next.1 (Issue.hostStep.inj hr)
    cases hnext
    exact .writeGlyph p ho
  | button code => cases hr; exact .button code s
  | tick reply aux => cases hr; exact .tick reply aux s
  | baselineAction replies => cases hr; exact .baselineAction replies s

/-- What a step that goes on can be: nothing is issued, an operation is run on the ports as they are presented, or the
host takes a step of its own. -/
theorem step_eq_next {s s' : State} (h : step s = .next s') :
    (s.program = [] ∧ s' = s) ∨
      (∃ sel rest i, s.program = .operation sel :: rest ∧ decode sel = .ok i ∧
        exec i (presentSel sel (withProgram rest s)) = .next s') ∨
      ∃ hs rest, s.program = hs :: rest ∧ HostTakes hs (withProgram rest s) s' := by
  cases hp : s.program with
  | nil =>
    rw [step_of_nil hp] at h
    cases h
    exact .inl ⟨rfl, rfl⟩
  | cons hs rest =>
    cases hr : runHostStep hs (withProgram rest s) with
    | nothing => cases hs <;> cases hr
    | operation sel t =>
      cases hs with
      | operation sel =>
        rw [step_of_operation hp] at h
        obtain ⟨i, hi, hexec⟩ := runSelector_eq_next h
        exact .inr (.inl ⟨sel, rest, i, rfl, hi, hexec⟩)
      | _ => cases hr
    | hostStep o =>
      rw [step_of_cons hp, hr] at h
      obtain rfl : o = .next s' := h
      exact .inr (.inr ⟨hs, rest, rfl, hostTakes_of_runHostStep hr⟩)

/-! ### What no step writes -/

/-- A button code changes nothing but the host's state and the draws. -/
theorem button_eq_withHost (code : Nat) (s : State) :
    ∃ h, button code s = withHost h s ∨ button code s = withHostDraw h s := by
  obtain hsame | ⟨h, hh, -⟩ := button_cases code s
  · exact ⟨s.host, .inl hsame⟩
  · exact ⟨h, hh⟩

/-- The results and the configuration are not the host's to write. -/
structure SameResults (s s' : State) : Prop where
  config : s'.config = s.config
  dec : s'.dec = s.dec
  enc : s'.enc = s.enc
  lut : s'.lut = s.lut
  pwm : s'.pwm = s.pwm

theorem HostTakes.sameResults {h : HostStep} {s s' : State} (ht : HostTakes h s s') : SameResults s s' := by
  cases ht with
  | button code =>
    obtain ⟨h, hb | hb⟩ := button_eq_withHost code s <;> rw [hb] <;> constructor <;> rfl
  | _ => constructor <;> rfl

/-- Settles O34: the configuration is in the frame of every operation and of every step of the host's own. -/
theorem configurationNeverWritten : Obligations.ConfigurationNeverWritten := by
  intro s s' h
  obtain ⟨-, rfl⟩ | ⟨sel, rest, i, -, -, hexec⟩ | ⟨hs, rest, -, ht⟩ := step_eq_next h
  · rfl
  · exact (sameButResults_of_exec hexec).config
  · exact ht.sameResults.config

/-! ### The order of the program -/

/-- What a step of the host's own leaves of the program. -/
def ProgramAfter (h : HostStep) (s s' : State) : Prop :=
  match h with
  | .skipUnlessReading n => s'.program = s.program ∨ s'.program = s.program.drop n
  | .tick reply aux => s'.program = tickSteps s.host reply aux ++ s.program
  | .baselineAction replies => s'.program = baselineActionSteps s.host replies ++ s.program
  | _ => s'.program = s.program

theorem HostTakes.programAfter {h : HostStep} {s s' : State} (ht : HostTakes h s s') : ProgramAfter h s s' := by
  cases ht with
  | goOn n => exact .inl rfl
  | skip n => exact .inr rfl
  | surfaceError hh =>
    simp only [List.mem_cons, List.not_mem_nil, or_false] at hh
    obtain rfl | rfl | rfl | rfl := hh <;> rfl
  | button code =>
    obtain ⟨h, hb | hb⟩ := button_eq_withHost code s <;> rw [hb] <;> rfl
  | _ => rfl

/-- Settles O35: `ProgramAfter` for the host's own steps; an operation leaves the program, from which it is removed. -/
theorem programOrder : Obligations.ProgramOrder := by
  intro s s' h
  obtain ⟨hp, rfl⟩ | ⟨sel, rest, i, hp, -, hexec⟩ | ⟨hs, rest, hp, ht⟩ := step_eq_next h <;>
    refine ⟨fun hnil => ?_, fun hs' rest' hp' => ?_⟩
  · rfl
  · rw [hp] at hp'
    cases hp'
  · rw [hp] at hnil
    cases hnil
  · rw [hp] at hp'
    cases hp'
    exact (sameButResults_of_exec hexec).program
  · rw [hp] at hnil
    cases hnil
  · rw [hp] at hp'
    cases hp'
    exact ht.programAfter

/-! ### Baseline -/

theorem buttonInMode_baseline {code : Nat} {s : State} (h : code ≠ codeIdle ∨ s.host.mode = .idle) :
    (buttonInMode code s).host.baseline = s.host.baseline := by
  unfold buttonInMode
  by_cases hcode : code = codeIdle
  case pos => rw [if_pos hcode, if_pos (h.resolve_left (not_not_intro hcode))]
  case neg =>
    rw [if_neg hcode]
    cases s.host.mode <;> split_ifs <;> rfl

/-- No button code but the Idle one, in another mode and outside the sub-loop, changes Baseline. -/
theorem button_baseline {code : Nat} {s : State} (h : (button code s).host.baseline ≠ s.host.baseline) :
    s.host.inDifference = false ∧ code = codeIdle ∧ s.host.mode ≠ .idle := by
  unfold button at h
  split at h
  case isTrue => split at h <;> exact absurd rfl h
  case isFalse hdiff =>
    by_contra hother
    refine h (buttonInMode_baseline ?_)
    by_contra hidle
    exact hother ⟨eq_false_of_ne_true hdiff, not_or.1 hidle |>.imp_left not_not.1⟩

/-- Entering Idle from another mode. -/
theorem button_codeIdle {s : State} (hdiff : s.host.inDifference = false) (hmode : s.host.mode ≠ .idle) :
    button codeIdle s = withHostDraw (enterIdle s.draws s.host) s := by
  simp [button, buttonInMode, hdiff, hmode]

/-- A step of the host's own that changes Baseline sets it or enters Idle. -/
theorem HostTakes.baseline {h : HostStep} {s s' : State} (ht : HostTakes h s s')
    (hne : s'.host.baseline ≠ s.host.baseline) :
    s.host.inDifference = false ∧
      ((h = .setBaseline ∧ s.host.mode = .calibrate ∧ s.host.samples.length = averageCount ∧
          s'.host.baseline = Config.hostMean s.draws s.host.samples) ∨
        (h = .button codeIdle ∧ s.host.mode ≠ .idle ∧ s' = withHostDraw (enterIdle s.draws s.host) s)) := by
  cases ht with
  | setBaseline hmode hdiff hlen => exact ⟨hdiff, .inl ⟨rfl, hmode, hlen, rfl⟩⟩
  | button code =>
    obtain ⟨hdiff, rfl, hmode⟩ := button_baseline hne
    exact ⟨hdiff, .inr ⟨rfl, hmode, button_codeIdle hdiff hmode⟩⟩
  | _ => exact absurd rfl hne

/-- Settles O55: no operation writes the host's state, and of the host's own steps `HostTakes.baseline` leaves two. -/
theorem baselineSetOnlyByCalibrationOrIdle : Obligations.BaselineSetOnlyByCalibrationOrIdle := by
  intro s s' h hne
  obtain ⟨-, rfl⟩ | ⟨sel, rest, i, -, -, hexec⟩ | ⟨hs, rest, hp, ht⟩ := step_eq_next h
  · exact absurd rfl hne
  · rw [(sameButResults_of_exec hexec).host] at hne
    exact absurd rfl hne
  · obtain ⟨hdiff, ⟨rfl, hmode, hlen, hmean⟩ | ⟨rfl, hmode, rfl⟩⟩ := ht.baseline hne
    · exact ⟨hdiff, .inl ⟨rest, hp, hmode, hlen, hmean⟩⟩
    · exact ⟨hdiff, .inr ⟨rest, hp, hmode, rfl, rfl⟩⟩

end Sys2Proof.Machine
end

section
/-! The legal states: every unit drives a legal result, and every step keeps a state legal. -/

namespace Sys2Proof.Machine

/-! ### What each unit drives is legal -/

/-- The top bit of `dec_q4` is its sign. -/
theorem q4_getLsbD_top (q4 : BitVec 13) : q4.getLsbD 12 = decide (q4.toInt < 0) :=
  BitVec.msb_eq_toInt (x := q4)

theorem decLegal_decReading (b0 b1 : Byte) : DecLegal (decReading (sensorWord b0 b1)) where
  status_eq := rfl
  neg_eq_top := by rw [q4_getLsbD_top, decReading_q4_toInt, decReading_neg]
  neg_eq_lt := by rw [decReading_neg, decReading_celsius]; exact (fltLt_celsiusReading b0 b1).symm
  finite := by rw [decReading_celsius]; exact (celsiusReading_exact b0 b1).1
  exact := by rw [decReading_celsius, decReading_q4_toInt]; exact (celsiusReading_exact b0 b1).2
  zero_positive hzero := by
    have hreading := decReading_q4_toInt b0 b1
    rw [hzero, show (0 : BitVec 13).toInt = 0 from rfl] at hreading
    rw [decReading_celsius, celsiusReading, ← hreading, zero_mul, fl_zero]
  no_reading := nofun

theorem decLegal_decNoReading : DecLegal decNoReading := by
  constructor <;> decide

theorem decLegal_decOutput (s : State) : DecLegal (decOutput (sensorOperand s)) := by
  unfold sensorOperand
  split
  · exact decLegal_decReading s.decB0 s.decB1
  · exact decLegal_decNoReading

theorem lut_unit_or {cfg : Config} {u : TempUnit} {seg : SegPattern} (h : lut cfg (unitGlyph u) = some seg) :
    lut cfg 10 = some seg ∨ lut cfg 11 = some seg := by
  cases u with
  | celsius => exact .inl h
  | fahrenheit => exact .inr h

/-- What ENC shows of a value that it can render is legal, where a blanked tens digit is 0. -/
theorem Shows.encLegal {cfg : Config} {u : TempUnit} {v : Flt} {m : Nat} {blank : Bool} {o : EncOut}
    (h : Shows cfg u v m blank o) (hblank : blank = true → o.d[0] = 0) : EncLegal cfg o where
  digit_le i := by rw [h.digit]; omega
  status_eq := by simp [h.status_eq, h.inv_eq, h.ovf_eq]
  unit_seg := lut_unit_or h.unit_seg
  sign_seg := h.sign_seg
  point := by simp [h.point, h.inv_eq]
  blank_tens hb := by
    rw [h.blank_eq] at hb
    have htens := h.tens_seg
    rw [if_pos hb] at htens
    exact ⟨hblank hb, htens⟩
  tens_seg _ hb := h.lut_digit 0 fun _ => hb
  digit_seg _ := h.digit_seg
  invalid hinv := by rw [h.inv_eq] at hinv; cases hinv

theorem ShowsNothing.encLegal {cfg : Config} {u : TempUnit} {o : EncOut} (h : ShowsNothing cfg u o) :
    EncLegal cfg o := by
  obtain ⟨hneg, hblank, hovf, hinv⟩ := h.flags
  constructor
  case digit_le => intro i; simp [(h.digits i).1]
  case status_eq => simp [h.status_eq, hinv]
  case unit_seg => exact lut_unit_or h.unit_seg
  case sign_seg => simp [hneg, h.sign_seg]
  case point => simp [h.point, hinv]
  case blank_tens => intro hb; rw [hblank] at hb; cases hb
  case tens_seg => intro hvalid; rw [hinv] at hvalid; cases hvalid
  case digit_seg => intro hvalid; rw [hinv] at hvalid; cases hvalid
  case invalid => exact fun _ => ⟨hneg, hblank, hovf, h.digits⟩

theorem eq_zero_of_encBlankFlag {path : EncPath} {tens : BitVec 4} (h : encBlankFlag path tens = true) : tens = 0 := by
  simp only [encBlankFlag, Bool.and_eq_true, beq_iff_eq] at h
  exact h.2

theorem encLegal_encOutput (cfg : Config) (path : EncPath) (u : TempUnit) (v : Flt) :
    EncLegal cfg (encOutput cfg path v u) := by
  unfold encOutput
  split
  · exact (shows_encRendered cfg path u v _).encLegal eq_zero_of_encBlankFlag
  · exact (showsNothing_encInvalid cfg u).encLegal

theorem lutLegal_lutOutput {cfg : Config} {g : GlyphIndex} {seg : SegPattern} (h : lut cfg g = some seg) :
    LutLegal cfg (lutOutput seg) := ⟨rfl, g, h⟩

theorem pwmLegal_pwmOutput (d : Flt) : PwmLegal (pwmOutput d) := by
  obtain ⟨-, hout⟩ | ⟨-, ⟨-, -, hout⟩ | ⟨-, -, hout⟩ | ⟨-, -, hout⟩⟩ := pwmOutput_cases d <;> rw [hout]
  · exact ⟨rfl, fun _ => rfl, nofun⟩
  · exact ⟨rfl, nofun, fun _ => .inl rfl⟩
  · exact ⟨rfl, nofun, fun _ => .inr (.inl rfl)⟩
  · exact ⟨rfl, nofun, fun _ => .inr (.inr rfl)⟩

/-! ### Steps that run an operation -/

/-- Presenting a selector other than DECODE's keeps a state legal. -/
theorem Legal.presentSel {s : State} (h : Legal s) {sel : Sel} (hsel : (sel == encode .decode) = false)
    (rest : List HostStep) : Legal (presentSel sel (withProgram rest s)) where
  dec := h.dec
  enc := h.enc
  lut := h.lut
  pwm := h.pwm
  host := ⟨h.host.difference_mode, h.host.duties⟩
  ready hr := by
    rw [presentSel_host, noteIssued_readingReady, hsel, Bool.or_false] at hr
    exact h.ready hr

theorem Legal.driveEnc {s : State} (h : Legal s) {o : EncOut} (ho : EncLegal s.config o) (u : TempUnit)
    (path : EncPath) : Legal (driveEnc o (driveEncSelect u path s)) where
  dec := h.dec
  enc := by rintro _ ⟨⟩; exact ho
  lut := h.lut
  pwm := h.pwm
  host := h.host
  ready := h.ready

theorem Legal.driveLut {s : State} (h : Legal s) {o : LutOut} (ho : LutLegal s.config o) : Legal (driveLut o s) where
  dec := h.dec
  enc := h.enc
  lut := by rintro _ ⟨⟩; exact ho
  pwm := h.pwm
  host := h.host
  ready := h.ready

theorem Legal.drivePwm {s : State} (h : Legal s) {o : PwmOut} (ho : PwmLegal o) : Legal (drivePwm o s) where
  dec := h.dec
  enc := h.enc
  lut := h.lut
  pwm := by rintro _ ⟨⟩; exact ho
  host := h.host
  ready := h.ready

/-- A DECODE gives the host its result of this tick. -/
theorem Legal.issueDecode {s : State} (h : Legal s) {o : DecOut} (ho : DecLegal o) (sel : Sel) (rest : List HostStep) :
    Legal (driveDec o (Machine.presentSel sel (withProgram rest s))) where
  dec := by rintro _ ⟨⟩; exact ho
  enc := h.enc
  lut := h.lut
  pwm := h.pwm
  host := ⟨h.host.difference_mode, h.host.duties⟩
  ready _ := ⟨o, rfl⟩

theorem Legal.issue {s s' : State} (h : Legal s) {sel : Sel} {i : Instr} {rest : List HostStep}
    (hi : decode sel = .ok i) (hexec : exec i (Machine.presentSel sel (withProgram rest s)) = .next s') :
    Legal s' := by
  have hsel := beq_encode_decode_of_ok hi
  obtain ⟨rfl, rfl⟩ | ⟨u, rfl, rfl⟩ | ⟨u, rfl, rfl⟩ | ⟨seg, rfl, hseg, rfl⟩ | ⟨rfl, rfl⟩ := exec_eq_next hexec
  · exact h.issueDecode (decLegal_decOutput _) sel rest
  · exact (h.presentSel hsel rest).driveEnc (encLegal_encOutput _ _ _ _) u .plain
  · exact (h.presentSel hsel rest).driveEnc (encLegal_encOutput _ _ _ _) u .difference
  · exact (h.presentSel hsel rest).driveLut (lutLegal_lutOutput hseg)
  · exact (h.presentSel hsel rest).drivePwm (pwmLegal_pwmOutput _)

/-! ### The host's own steps -/

theorem PwmLegal.duties {o : PwmOut} (h : PwmLegal o) : dutiesOf o = #v[0, 0, 0] ∨ oneChannelOn (dutiesOf o) := by
  cases hinv : o.inv with
  | true => exact .inl (h.invalid hinv)
  | false => exact .inr (h.valid hinv)

theorem HostLegal.button {s : State} (h : HostLegal s.host) (code : Nat) : HostLegal (button code s).host := by
  obtain hsame | ⟨g, hg | hg, hduty, hdiff⟩ := button_cases code s
  · rwa [hsame]
  all_goals
    rw [hg]
    refine ⟨fun hd => ?_, ?_⟩
    · rcases hdiff hd with hcal | ⟨hmode, hold⟩
      · exact hcal
      · exact hmode.trans (h.difference_mode hold)
    · rcases hduty with hkeep | hoff
      · exact hkeep ▸ h.duties
      · exact .inl hoff

/-- Only the button codes change Mode or the sub-loop, and only they and the duty write change the duties. -/
theorem HostTakes.hostLegal {hs : HostStep} {s s' : State} (ht : HostTakes hs s s') (h : Legal s) :
    HostLegal s'.host := by
  cases ht with
  | writeDuties ho => exact ⟨h.host.difference_mode, (h.pwm _ (readResult_eq_ok.1 ho).1).duties⟩
  | button code => exact h.host.button code
  | _ => exact ⟨h.host.difference_mode, h.host.duties⟩

theorem button_readingReady (code : Nat) (s : State) :
    (button code s).host.readingReady = s.host.readingReady := by
  unfold button buttonInMode
  cases s.host.mode <;> split_ifs <;> rfl

/-- None of the host's own steps makes a reading. -/
theorem HostTakes.ready {hs : HostStep} {s s' : State} (ht : HostTakes hs s s') (hr : s'.host.readingReady = true) :
    s.host.readingReady = true := by
  cases ht with
  | presentSensor | temperatureRead | temperatureReadFailed | takeSample => cases hr
  | button code => rwa [button_readingReady] at hr
  | _ => exact hr

theorem HostTakes.legal {hs : HostStep} {s s' : State} (ht : HostTakes hs s s') (h : Legal s) : Legal s' := by
  obtain ⟨hcfg, hdec, henc, hlut, hpwm⟩ := ht.sameResults
  constructor
  case dec => rw [hdec]; exact h.dec
  case enc => rw [henc, hcfg]; exact h.enc
  case lut => rw [hlut, hcfg]; exact h.lut
  case pwm => rw [hpwm]; exact h.pwm
  case host => exact ht.hostLegal h
  case ready => rw [hdec]; exact fun hr => h.ready (ht.ready hr)

theorem Legal.withProgram {s : State} (h : Legal s) (rest : List HostStep) : Legal (withProgram rest s) :=
  ⟨h.dec, h.enc, h.lut, h.pwm, h.host, h.ready⟩

/-- Settles O36: an operation drives a legal result (`Legal.issue`), and a step of the host's own drives none
(`HostTakes.legal`). -/
theorem stepKeepsLegal : Obligations.StepKeepsLegal := by
  intro s s' hlegal h
  obtain ⟨-, rfl⟩ | ⟨sel, rest, i, -, hi, hexec⟩ | ⟨hs, rest, -, ht⟩ := step_eq_next h
  · exact hlegal
  · exact hlegal.issue hi hexec
  · exact ht.legal (hlegal.withProgram rest)

/-! ### Reset -/

/-- Settles O37: no unit has a result, and the channels are off. -/
theorem resetLegal : Obligations.ResetLegal := ⟨nofun, nofun, nofun, nofun, ⟨nofun, .inl rfl⟩, nofun⟩

/-- Settles O38: the fields of the state after reset. -/
theorem resetValues : Obligations.ResetValues := ⟨rfl, rfl, rfl, rfl, rfl, rfl, rfl, rfl⟩

end Sys2Proof.Machine
end

section
/-! R25 to R28, R31 to R39, R46, R69, R111, R114 and R115: each of the host's own steps, with everything that it leaves
unchanged. -/

namespace Sys2Proof.Machine

/-- A step of the host's own is what `runHostStep` makes of it, with the step taken off the program. -/
theorem step_of_hostStep {s : State} {h : HostStep} {rest : List HostStep} {o : Host.Outcome State Fault Refusal}
    (hp : s.program = h :: rest) (hr : runHostStep h (withProgram rest s) = .hostStep o) : step s = o := by
  rw [step_of_cons hp, hr]

/-! ### Sensor reads -/

/-- Settles O41: the step, and the word as `sensorWord_toNat` has it. -/
theorem completedReadPresentsBytes : Obligations.CompletedReadPresentsBytes :=
  fun _ b0 b1 _ hp => ⟨step_of_hostStep hp rfl, sensorWord_toNat b0 b1⟩

theorem memRead_of_undefined {reg : Byte} {n : Nat} (htemp : ¬(reg = 0x00 ∧ n = 2)) (hid : ¬(reg = 0x0B ∧ n = 1))
    (reply : Option (List Byte)) (s : State) : memRead reg n reply s = .refused (.sensorRead reg n) :=
  (if_neg htemp).trans (if_neg hid)

/-- Settles O42, by `memRead_of_undefined`. -/
theorem otherSensorReadsRefused : Obligations.OtherSensorReadsRefused := fun _ _ _ reply _ hp htemp hid =>
  step_of_hostStep hp (congrArg Issue.hostStep (memRead_of_undefined htemp hid reply _))

/-- Settles O43: only the log of the identity byte and of the read changes. -/
theorem identityReadChangesNothing : Obligations.IdentityReadChangesNothing := by
  intro s b rest hp
  have hlog : decide (b ≠ Config.idExpected) = (b != Config.idExpected) := by
    rw [Bool.eq_iff_iff, decide_eq_true_eq, bne_iff_ne]
  rw [step_of_hostStep hp rfl, hlog]
  rfl

/-! ### Reads of results -/

theorem readResult_none {α : Type} (u : BlockUnit) (status : α → StatusCode) :
    readResult u status none = .error (.undrivenOutput u) := rfl

theorem readResult_some {α : Type} {u : BlockUnit} {status : α → StatusCode} {o : α} (h : status o ≠ 7) :
    readResult u status (some o) = .ok o := if_neg h

theorem readDec_of_none {s : State} (h : s.dec = none) : readDec s = .error (.undrivenOutput .dec) := by
  rw [readDec, h, readResult_none]

theorem readCelsius_of_none {s : State} (h : s.dec = none) : readCelsius s = .error (.undrivenOutput .dec) := by
  rw [readCelsius, readDec_of_none h]

theorem readCelsius_of_hasReading {s : State} {c : Flt} (h : HasReading s c) : readCelsius s = .ok (some c) := by
  obtain ⟨o, ho, hstatus, hready, hvalid, hc⟩ := h
  exact readCelsius_eq_some.2 ⟨o, readResult_eq_ok.2 ⟨ho, hstatus⟩, hready, hvalid, hc⟩

theorem readCelsius_of_hasNoReading {s : State} (h : HasNoReading s) : readCelsius s = .ok none := by
  obtain ⟨o, ho, hstatus, hno⟩ := h
  rw [readCelsius, readDec, ho, readResult_some hstatus]
  rcases hno with hno | hno <;> simp [hno]

/-- A read error is surfaced. -/
theorem withReading_of_none {s : State} (h : readCelsius s = .ok none) (k : Flt → State) :
    withReading s k = .next (withHost (surfaceReadError s.host) s) := by
  rw [withReading, h, withRead_ok]

theorem withReading_of_some {s : State} {c : Flt} (h : readCelsius s = .ok (some c)) (k : Flt → State) :
    withReading s k = .next (k c) := by
  rw [withReading, h, withRead_ok]

theorem withReading_of_error {s : State} {f : Fault} (h : readCelsius s = .error f) (k : Flt → State) :
    withReading s k = .fault f := by
  rw [withReading, h, withRead_error]

theorem passDifference_of_inDifference {s : State} (h : s.host.inDifference = true) :
    passDifference s = withReading s fun c =>
      withHostDraw s.host
        (presentDifference (Config.hostDifference s.draws s.host.baseline c)
          (presentValue (Config.hostDifference s.draws s.host.baseline c) s)) := if_pos h

/-- Settles O39: each of these steps begins with the read of its unit's result. -/
theorem undrivenResultFaults : Obligations.UndrivenResultFaults := by
  refine ⟨⟨rfl, rfl, rfl, rfl⟩, fun s rest => ⟨fun hdec => ?dec, fun henc hp => ?enc, fun hlut p hp => ?lut,
    fun hpwm hp => ?pwm⟩⟩
  case dec =>
    have hread : readCelsius (withProgram rest s) = .error (.undrivenOutput .dec) := readCelsius_of_none hdec
    refine ⟨fun n hp => ?_, fun hp => ?_, fun hp => ?_, fun hp => ?_, fun hp hdiff => ?_⟩ <;>
      refine step_of_hostStep hp (congrArg Issue.hostStep ?_)
    · rw [skipUnlessReading, hread, withRead_error]
    · exact withReading_of_error hread _
    · exact withReading_of_error hread _
    · exact withReading_of_error hread _
    · rw [passDifference_of_inDifference (s := withProgram rest s) hdiff]
      exact withReading_of_error hread _
  case enc =>
    refine step_of_hostStep hp (congrArg Issue.hostStep ?_)
    rw [writeDisplay, readEnc, withProgram_enc, henc, readResult_none, withRead_error]
  case lut =>
    refine step_of_hostStep hp (congrArg Issue.hostStep ?_)
    rw [writeGlyph, readLut, withProgram_lut, hlut, readResult_none, withRead_error]
  case pwm =>
    refine step_of_hostStep hp (congrArg Issue.hostStep ?_)
    rw [writeDuties, readPwm, withProgram_pwm, hpwm, readResult_none, withRead_error]

/-! ### Uses of a reading -/

/-- Settles O57: each use goes on with the reading that `readCelsius` gives. -/
theorem readingReachesItsUse : Obligations.ReadingReachesItsUse := by
  intro s rest c hreading
  have hread : readCelsius (withProgram rest s) = .ok (some c) := readCelsius_of_hasReading hreading
  refine ⟨fun hp => ?_, fun hp => ?_, fun hp => ?_, fun hp hdiff => ?_, fun n hp => ?_⟩ <;>
    refine step_of_hostStep hp (congrArg Issue.hostStep ?_)
  · exact withReading_of_some hread _
  · exact withReading_of_some hread _
  · exact withReading_of_some hread _
  · rw [passDifference_of_inDifference (s := withProgram rest s) hdiff]
    exact withReading_of_some hread _
  · rw [skipUnlessReading, hread, withRead_ok]
    rfl

/-- Settles O58: each use surfaces the error where `readCelsius` gives no reading. -/
theorem noReadingSurfacesError : Obligations.NoReadingSurfacesError := by
  intro s rest hnone
  have hread : readCelsius (withProgram rest s) = .ok none := readCelsius_of_hasNoReading hnone
  refine ⟨fun h hmem hp => ?_, fun hp hdiff => ?_, fun n hp => ?_⟩
  · simp only [List.mem_cons, List.not_mem_nil, or_false] at hmem
    obtain rfl | rfl | rfl := hmem <;>
      exact step_of_hostStep hp (congrArg Issue.hostStep (withReading_of_none hread _))
  · refine step_of_hostStep hp (congrArg Issue.hostStep ?_)
    rw [passDifference_of_inDifference (s := withProgram rest s) hdiff]
    exact withReading_of_none hread _
  · refine step_of_hostStep hp (congrArg Issue.hostStep ?_)
    rw [skipUnlessReading, hread, withRead_ok]
    rfl

/-- The DECODE after a failed read. -/
theorem step_decode_of_not_decOk {s : State} {rest : List HostStep} (hp : s.program = .operation 0b0000 :: rest)
    (hok : s.decOk = false) :
    step s = .next (driveDec decNoReading (presentSel 0b0000 (withProgram rest s))) := by
  rw [step_of_operation hp, runSelector_of_ok ((decode_eq_ok_decode_iff _).2 rfl), exec_decode_of_not_decOk]
  exact hok

/-- Settles O40: the read, the DECODE after it, and the step that finds no reading. -/
theorem failedReadGivesNoReading : Obligations.FailedReadGivesNoReading := by
  intro s rest hp
  refine ⟨_, _, step_of_hostStep hp rfl, rfl, step_decode_of_not_decOk rfl rfl, rfl, ?_⟩
  refine (noReadingSurfacesError _ rest ?_).1 .passCelsius (by simp) rfl
  exact ⟨decNoReading, rfl, by decide, .inr rfl⟩

/-! ### Presented operands -/

/-- Settles O56: each of these steps is one update of a port. -/
theorem presentedOperandsReachPorts : Obligations.PresentedOperandsReachPorts := fun _ _ =>
  ⟨fun _ _ _ hp => step_of_hostStep hp rfl, fun _ hp => step_of_hostStep hp rfl, fun _ hp => step_of_hostStep hp rfl,
    fun _ hp => step_of_hostStep hp rfl, fun hp => step_of_hostStep hp rfl⟩

/-! ### Button codes -/

theorem step_of_button {s : State} {code : Nat} {rest : List HostStep} (hp : s.program = .button code :: rest) :
    step s = .next (button code (withProgram rest s)) := step_of_hostStep hp rfl

/-- Settles O44, by `button_codeIdle`. -/
theorem idleEntryClearsHost : Obligations.IdleEntryClearsHost := by
  intro s rest hp hdiff hmode
  rw [step_of_button hp]
  exact congrArg _ (button_codeIdle (s := withProgram rest s) hdiff hmode)

theorem button_of_not_inDifference {s : State} (hdiff : s.host.inDifference = false) (code : Nat) :
    button code s = buttonInMode code s := if_neg (ne_true_of_eq_false hdiff)

theorem button_of_inDifference {s : State} {code : Nat} (hdiff : s.host.inDifference = true)
    (hcode : code = codeLive ∨ code = codeIdle) :
    button code s = withHostDraw (leaveDifference s.draws s.host) s := by
  rw [button, if_pos hdiff, if_pos hcode]

theorem buttonInMode_codeCalibrate_of_live {s : State} (hmode : s.host.mode = .live) :
    buttonInMode codeCalibrate s = withHostDraw { clearDisplay s.draws s.host with mode := .calibrate } s := by
  simp [buttonInMode, codeIdle, codeLive, codeCalibrate, hmode]

theorem buttonInMode_codeShowDifference (s : State) :
    buttonInMode codeShowDifference s =
      if s.host.mode = .calibrate then withHost { s.host with inDifference := true } s else s := by
  simp [buttonInMode, codeIdle, codeLive, codeCalibrate, codeSetBaseline, codeShowDifference]

/-- In Idle only the Live and the Calibrate code are recognised. -/
theorem buttonInMode_of_idle {s : State} (hmode : s.host.mode = .idle) (code : Nat) :
    buttonInMode code s =
      if code = codeLive then withHost { s.host with mode := .live } s
      else if code = codeCalibrate then withHost { s.host with mode := .calibrate } s
      else s := by
  by_cases hidle : code = codeIdle
  · simp [buttonInMode, hidle, hmode, codeIdle, codeLive, codeCalibrate]
  · simp [buttonInMode, hidle, hmode]

theorem button_of_unrecognised {code : Nat} (hcode : code ∉ [codeIdle, codeSetBaseline, codeCalibrate,
    codeShowDifference, codeLive]) (s : State) : button code s = s := by
  simp only [List.mem_cons, List.not_mem_nil, or_false, not_or] at hcode
  obtain ⟨hidle, hbaseline, hcalibrate, hdifference, hlive⟩ := hcode
  simp [button, buttonInMode, hidle, hbaseline, hcalibrate, hdifference, hlive]

/-- Settles O52, by `buttonInMode_codeCalibrate_of_live`. -/
theorem leavingLiveClearsDisplay : Obligations.LeavingLiveClearsDisplay := by
  intro s rest hp hdiff hmode
  rw [step_of_button hp, button_of_not_inDifference (s := withProgram rest s) hdiff]
  exact congrArg _ (buttonInMode_codeCalibrate_of_live (s := withProgram rest s) hmode)

/-- Settles O53, by `buttonInMode_codeShowDifference`. -/
theorem differenceEnteredOnlyInCalibrate : Obligations.DifferenceEnteredOnlyInCalibrate := by
  intro s rest hp hdiff
  have hcode : button 8 (withProgram rest s) = _ :=
    (button_of_not_inDifference (s := withProgram rest s) hdiff 8).trans (buttonInMode_codeShowDifference _)
  rw [step_of_button hp, hcode]
  exact ⟨fun hmode => congrArg _ (if_pos hmode), fun hmode => congrArg _ (if_neg hmode)⟩

/-- Settles O45: Mode is the free value, and in both its cases not Idle. -/
theorem leavingDifferenceForcesChannelsOff : Obligations.LeavingDifferenceForcesChannelsOff := by
  intro s rest code hp hcode hdiff
  refine ⟨if Config.liveAfterDifference s.draws then .live else .calibrate, ?_, ?_⟩
  · split <;> decide
  · rw [step_of_button hp, button_of_inDifference (s := withProgram rest s) hdiff hcode.symm]
    rfl

/-- Settles O46, by `button_of_unrecognised`. -/
theorem unrecognisedButtonIsNoOp : Obligations.UnrecognisedButtonIsNoOp := by
  intro s rest code hp hcode
  rw [step_of_button hp, button_of_unrecognised hcode]
  rfl

/-- Settles O50, by `buttonInMode_of_idle`. -/
theorem idleLeftOnLiveOrCalibrate : Obligations.IdleLeftOnLiveOrCalibrate := by
  intro s rest code hp hmode hdiff
  rw [step_of_button hp, button_of_not_inDifference (s := withProgram rest s) hdiff,
    buttonInMode_of_idle (s := withProgram rest s) hmode, ← hmode]
  by_cases hlive : code = 16
  · rw [if_pos hlive]
    exact congrArg _ (if_pos hlive)
  · by_cases hcal : code = 4
    · rw [if_neg hlive, if_pos hcal]
      exact congrArg _ ((if_neg hlive).trans (if_pos hcal))
    · rw [if_neg hlive, if_neg hcal]
      exact congrArg _ ((if_neg hlive).trans (if_neg hcal))

/-! ### Baseline and the devices -/

/-- Settles O49: the two branches of the step. -/
theorem baselineIsMeanOfThirtyReadings : Obligations.BaselineIsMeanOfThirtyReadings := by
  refine fun s rest hp => ⟨fun hmode hdiff hlen => ?_, fun hother => ?_⟩ <;>
    refine step_of_hostStep hp (congrArg Issue.hostStep ?_)
  · exact if_pos ⟨hmode, hdiff, hlen⟩
  · refine if_neg ?_
    rintro ⟨hmode, hdiff, hlen⟩
    rcases hother with h | h | h
    · exact h hmode
    · exact absurd (hdiff.symm.trans h) (by decide)
    · exact h hlen

theorem writeDuties_of_some {s : State} {o : PwmOut} (ho : s.pwm = some o) (hstatus : o.status ≠ 7) :
    writeDuties s = .next (withHost { s.host with duty := dutiesOf o } s) := by
  rw [writeDuties, readPwm, ho, readResult_some hstatus, withRead_ok]

theorem writeGlyph_of_some {s : State} {o : LutOut} (ho : s.lut = some o) (hstatus : o.status ≠ 7) (p : Fin 9) :
    writeGlyph p s = .next (withHost { s.host with display := s.host.display.set p.val o.seg } s) := by
  rw [writeGlyph, readLut, ho, readResult_some hstatus, withRead_ok]

/-- Settles O47, by `writeDuties_of_some`. -/
theorem dutyWriteReachesItsChannel : Obligations.DutyWriteReachesItsChannel := by
  intro s rest o hp ho hstatus
  exact step_of_hostStep hp (congrArg Issue.hostStep (writeDuties_of_some (s := withProgram rest s) ho hstatus))

/-- Settles O54: the write sets one element of the display. -/
theorem glyphWriteReachesItsPosition : Obligations.GlyphWriteReachesItsPosition := by
  intro s rest p o hp ho hstatus
  refine ⟨s.host.display.set p.val o.seg, ?_, Vector.getElem_set_self _, fun q hq => ?_⟩
  · exact step_of_hostStep hp (congrArg Issue.hostStep (writeGlyph_of_some (s := withProgram rest s) ho hstatus p))
  · exact Vector.getElem_set_ne _ _ fun h => hq (Fin.ext h.symm)

/-! ### The display -/

theorem getLsbD_or_bit (mask : BitVec 9) (a b : Fin 9) :
    (mask ||| 1#9 <<< a.val).getLsbD b.val = true ↔ mask.getLsbD b.val = true ∨ a = b := by
  have hbit : ∀ a b : Fin 9, (1#9 <<< a.val).getLsbD b.val = true ↔ a = b := by decide
  rw [BitVec.getLsbD_or, Bool.or_eq_true, hbit]

/-- The bits that a fold over positions sets: those it began with, and those of the positions that show a point. -/
theorem getLsbD_foldl_points (shown : Fin 9 → Bool) (bit : Fin 9 → Fin 9) (ps : List (Fin 9)) (mask : BitVec 9)
    (b : Fin 9) :
    (ps.foldl (fun mask p => if shown p then mask ||| (1#9 <<< (bit p).val) else mask) mask).getLsbD b.val = true ↔
      mask.getLsbD b.val = true ∨ ∃ p ∈ ps, shown p = true ∧ bit p = b := by
  induction ps generalizing mask with
  | nil => simp
  | cons p ps ih =>
    rw [List.foldl_cons, ih]
    by_cases hp : shown p = true
    · rw [if_pos hp, getLsbD_or_bit]
      simp [hp, or_assoc]
    · rw [if_neg hp]
      simp [hp]

theorem displayMask_getLsbD (o : EncOut) (p : Fin 9) :
    (displayMask o).getLsbD (maskBit p).val = true ↔ pointShown o p = true := by
  rw [displayMask, getLsbD_foldl_points]
  simp only [BitVec.getLsbD_zero, Bool.false_eq_true, false_or, List.mem_finRange, true_and, maskBit_injective.eq_iff,
    exists_eq_right]

theorem pointShown_iff (o : EncOut) (p : Fin 9) :
    pointShown o p = true ↔ ∃ i, layout p = some (.digit i) ∧ o.dp.getLsbD i.val = true := by
  unfold pointShown
  split
  · rename_i i hi
    simp [hi]
  · rename_i hother
    simp only [Bool.false_eq_true, false_iff]
    rintro ⟨i, hi, -⟩
    exact hother i hi

theorem displayed_getElem (o : EncOut) (old : Vector SegPattern 9) (p : Fin 9) :
    (displayed o old)[p.val] =
      match layout p with
      | none => old[p.val]
      | some .unit => o.useg
      | some .sign => o.sseg
      | some (.digit i) => o.dseg[i.val] := by
  rw [displayed, Vector.getElem_ofFn]
  cases layout p with
  | none => rfl
  | some g => cases g <;> rfl

theorem writeDisplay_of_some {s : State} {o : EncOut} (ho : s.enc = some o) (hstatus : o.status ≠ 7) :
    writeDisplay s =
      .next (withHost { s.host with display := displayed o s.host.display, dpMask := displayMask o } s) := by
  rw [writeDisplay, readEnc, ho, readResult_some hstatus, withRead_ok]

/-- Settles O48: the patterns by `displayed_getElem`, the mask by `displayMask_getLsbD`, since no two positions share a
bit. -/
theorem displayWriteFollowsLayout : Obligations.DisplayWriteFollowsLayout := by
  refine ⟨exists_layout_eq, fun _ _ h => maskBit_injective h, fun s rest o hp ho hstatus => ?_⟩
  refine ⟨displayed o s.host.display, displayMask o, ?_, displayed_getElem o _, fun p => ?_⟩
  · exact step_of_hostStep hp (congrArg Issue.hostStep (writeDisplay_of_some (s := withProgram rest s) ho hstatus))
  · rw [displayMask_getLsbD, pointShown_iff]

end Sys2Proof.Machine
end

section
/-! R44 and R46: the sequences in which the host uses the block, each as one run. -/

namespace Sys2Proof.Machine

/-! ### The steps that the sequences are made of -/

/-- A selector other than DECODE's leaves the host's state as it is. -/
theorem presentSel_of_ne {sel : Sel} (hsel : (sel == encode .decode) = false) (s : State) :
    presentSel sel s = { s with sel := sel } := by
  rw [presentSel, noteIssued, hsel, Bool.or_false]

theorem step_encInstr {s : State} {path : EncPath} {u : TempUnit} {rest : List HostStep}
    (hp : s.program = .operation (encode (encInstr path u)) :: rest) :
    step s = .next { s with
      program := rest
      sel := encode (encInstr path u)
      encUnit := u
      encPath := path
      enc := some (encOutput s.config path s.encV u) } := by
  have hsel : (encode (encInstr path u) == encode .decode) = false := by cases path <;> cases u <;> rfl
  rw [step_of_operation hp, runSelector_of_ok (decode_encode _), presentSel_of_ne hsel, exec_encInstr]
  rfl

theorem step_pwmMap {s : State} {rest : List HostStep} (hp : s.program = .operation (encode .pwmMap) :: rest) :
    step s = .next { s with program := rest, sel := encode .pwmMap, pwm := some (pwmOutput s.pwmD) } := by
  rw [step_of_operation hp, runSelector_of_ok (decode_encode _), presentSel_of_ne rfl, exec_pwmMap]
  rfl

/-- ENC drives no status without a name (R94). -/
theorem encOutput_status_ne (cfg : Config) (path : EncPath) (v : Flt) (u : TempUnit) :
    (encOutput cfg path v u).status ≠ 7 := by
  rw [(encLegal_encOutput cfg path u v).status_eq]
  split
  · decide
  · split <;> decide

theorem pwmOutput_status_ne (d : Flt) : (pwmOutput d).status ≠ 7 := by
  rw [(pwmLegal_pwmOutput d).status_eq]
  split <;> decide

/-- The host after its display write. -/
def showing (o : EncOut) (h : HostState) : HostState :=
  { h with display := displayed o h.display, dpMask := displayMask o }

theorem step_writeDisplay {s : State} {o : EncOut} {rest : List HostStep} (hp : s.program = .writeDisplay :: rest)
    (ho : s.enc = some o) (hstatus : o.status ≠ 7) :
    step s = .next { s with program := rest, host := showing o s.host } :=
  step_of_hostStep hp (congrArg Issue.hostStep (writeDisplay_of_some (s := withProgram rest s) ho hstatus))

theorem displayShows_showing (o : EncOut) (h : HostState) : DisplayShows (showing o h) o :=
  displayShows_of_eq_displayed rfl

theorem step_tick {s : State} {reply : Option (Byte × Byte)} {u : TempUnit} {rest : List HostStep}
    (hp : s.program = .tick reply u :: rest) : step s = .next (withProgram (tickSteps s.host reply u ++ rest) s) :=
  step_of_hostStep hp rfl

/-- After the reading part of a sequence the host has the reading. -/
theorem hasReading_afterReading (b0 b1 : Byte) (p : List HostStep) (s : State) :
    HasReading (afterReading b0 b1 p s) (celsiusReading b0 b1) :=
  ⟨_, rfl, show statusCode .ok ≠ 7 by decide, rfl, rfl, decReading_celsius b0 b1⟩

theorem step_passReading {s : State} {c : Flt} {u : TempUnit} {rest : List HostStep}
    (hp : s.program = passReading u :: rest) (hc : HasReading s c) :
    step s = .next { s with program := rest, encV := inUnit u c } := by
  obtain ⟨hcelsius, hfahrenheit, -⟩ := readingReachesItsUse s rest c hc
  cases u with
  | celsius => exact hcelsius hp
  | fahrenheit => exact hfahrenheit hp

/-! ### The Live tick -/

theorem tickSteps_of_live {h : HostState} (hmode : h.mode = .live) (reply : Option (Byte × Byte)) (u : TempUnit) :
    tickSteps h reply u = liveTickSteps reply u := by
  rw [tickSteps, hmode]

/-- What a Live tick shows. -/
def liveOutput (cfg : Config) (b0 b1 : Byte) (u : TempUnit) : EncOut :=
  encOutput cfg .plain (inUnit u (celsiusReading b0 b1)) u

/-- The state after a Live tick whose read completed. -/
def afterLiveTick (b0 b1 : Byte) (u : TempUnit) (rest : List HostStep) (s : State) : State :=
  { afterReading b0 b1 rest s with
    sel := encode (.encPlain u)
    encV := inUnit u (celsiusReading b0 b1)
    encUnit := u
    encPath := .plain
    enc := some (liveOutput s.config b0 b1 u)
    host := showing (liveOutput s.config b0 b1 u) (afterReading b0 b1 rest s).host }

theorem stepN_liveTick {s : State} {b0 b1 : Byte} {u : TempUnit} {rest : List HostStep}
    (hp : s.program = .tick (some (b0, b1)) u :: rest) (hmode : s.host.mode = .live) :
    stepN 7 s = .next (afterLiveTick b0 b1 u rest s) := by
  rw [stepN_succ (step_tick hp), tickSteps_of_live hmode]
  refine Eq.trans (stepN_add (n := 3) (m := 3) (stepN_readingSteps_completed rfl)) ?_
  refine Eq.trans (stepN_succ (step_passReading rfl (hasReading_afterReading b0 b1 _ _))) ?_
  refine Eq.trans (stepN_succ (step_encInstr (path := .plain) (u := u) rfl)) ?_
  refine Eq.trans (stepN_succ (step_writeDisplay rfl rfl (encOutput_status_ne _ _ _ _))) ?_
  rfl

/-! ### The show-difference tick -/

theorem tickSteps_of_inDifference {h : HostState} (hmode : h.mode = .calibrate) (hdiff : h.inDifference = true)
    (reply : Option (Byte × Byte)) (u : TempUnit) : tickSteps h reply u = differenceTickSteps reply := by
  rw [tickSteps, hmode, hdiff]
  rfl

theorem step_passDifference {s : State} {c : Flt} {rest : List HostStep} (hp : s.program = .passDifference :: rest)
    (hdiff : s.host.inDifference = true) (hc : HasReading s c) :
    step s = .next { s with
      program := rest
      encV := Config.hostDifference s.draws s.host.baseline c
      pwmD := Config.hostDifference s.draws s.host.baseline c
      draws := s.draws + 1 } := by
  obtain ⟨-, -, -, huse, -⟩ := readingReachesItsUse s rest c hc
  exact huse hp hdiff

theorem step_writeDuties {s : State} {o : PwmOut} {rest : List HostStep} (hp : s.program = .writeDuties :: rest)
    (ho : s.pwm = some o) (hstatus : o.status ≠ 7) :
    step s = .next { s with program := rest, host := { s.host with duty := dutiesOf o } } :=
  dutyWriteReachesItsChannel s rest o hp ho hstatus

/-- The state after a show-difference tick whose read completed and whose difference is `v`. -/
def afterDifferenceTick (b0 b1 : Byte) (v : Flt) (rest : List HostStep) (s : State) : State :=
  { afterReading b0 b1 rest s with
    sel := encode .pwmMap
    encV := v
    encUnit := .celsius
    encPath := .difference
    enc := some (encOutput s.config .difference v .celsius)
    pwmD := v
    pwm := some (pwmOutput v)
    host := { showing (encOutput s.config .difference v .celsius) (afterReading b0 b1 rest s).host with
      duty := dutiesOf (pwmOutput v) }
    draws := s.draws + 1 }

theorem stepN_differenceTick {s : State} {b0 b1 : Byte} {u : TempUnit} {rest : List HostStep}
    (hp : s.program = .tick (some (b0, b1)) u :: rest) (hmode : s.host.mode = .calibrate)
    (hdiff : s.host.inDifference = true) :
    stepN 9 s = .next
      (afterDifferenceTick b0 b1 (Config.hostDifference s.draws s.host.baseline (celsiusReading b0 b1)) rest s) := by
  rw [stepN_succ (step_tick hp), tickSteps_of_inDifference hmode hdiff]
  refine Eq.trans (stepN_add (n := 3) (m := 5) (stepN_readingSteps_completed rfl)) ?_
  refine Eq.trans (stepN_succ (step_passDifference rfl hdiff (hasReading_afterReading b0 b1 _ _))) ?_
  refine Eq.trans (stepN_succ (step_encInstr (path := .difference) (u := .celsius) rfl)) ?_
  refine Eq.trans (stepN_succ (step_pwmMap rfl)) ?_
  refine Eq.trans (stepN_succ (step_writeDisplay rfl rfl (encOutput_status_ne _ _ _ _))) ?_
  refine Eq.trans (stepN_succ (step_writeDuties rfl rfl (pwmOutput_status_ne _))) ?_
  rfl

/-! ### A tick without a reading -/

theorem exists_tickSteps_eq_readingSteps {h : HostState}
    (hmode : h.mode = .live ∨ (h.mode = .calibrate ∧ h.inDifference = true)) (reply : Option (Byte × Byte))
    (u : TempUnit) : ∃ use, tickSteps h reply u = readingSteps reply use := by
  rcases hmode with hlive | ⟨hcal, hdiff⟩
  · exact ⟨_, tickSteps_of_live hlive reply u⟩
  · exact ⟨_, tickSteps_of_inDifference hcal hdiff reply u⟩

theorem stepN_failedTick {s : State} {u : TempUnit} {rest : List HostStep} (hp : s.program = .tick none u :: rest)
    (hmode : s.host.mode = .live ∨ (s.host.mode = .calibrate ∧ s.host.inDifference = true)) :
    stepN 4 s = .next (afterFailedReading rest s) := by
  obtain ⟨use, huse⟩ := exists_tickSteps_eq_readingSteps hmode none u
  rw [stepN_succ (step_tick hp), huse, stepN_readingSteps_failed rfl]
  rfl

theorem tickSteps_of_other {h : HostState} (hmode : h.mode = .idle ∨ (h.mode = .calibrate ∧ h.inDifference = false))
    (reply : Option (Byte × Byte)) (u : TempUnit) : tickSteps h reply u = [] := by
  rcases hmode with hidle | ⟨hcal, hdiff⟩
  · rw [tickSteps, hidle]
  · rw [tickSteps, hcal, hdiff]
    rfl

/-- Settles O59: the Live tick, the show-difference tick, the tick after a failed read, and the tick elsewhere. -/
theorem ticksFollowTable : Obligations.TicksFollowTable := by
  intro s reply u rest hp
  refine ⟨?live, ?difference, ?failed, ?other⟩
  case live =>
    rintro b0 b1 hmode rfl
    exact ⟨_, _, _, stepN_liveTick hp hmode, rfl, decReading_celsius b0 b1, exec_encInstr .plain u _,
      displayShows_showing _ _, hmode, rfl, rfl, rfl⟩
  case difference =>
    rintro b0 b1 _ hmode hdiff rfl rfl
    exact ⟨_, _, _, _, stepN_differenceTick hp hmode hdiff, rfl, decReading_celsius b0 b1,
      exec_encInstr .difference .celsius _, rfl, displayShows_of_eq_displayed rfl, rfl, hmode, hdiff, rfl, rfl⟩
  case failed =>
    rintro hmode rfl
    exact ⟨_, stepN_failedTick hp hmode, rfl, rfl⟩
  case other =>
    intro hmode
    rw [step_tick hp, tickSteps_of_other hmode]
    rfl

/-! ### A reading on the display -/

theorem encOutput_celsiusReading (cfg : Config) (b0 b1 : Byte) (u : TempUnit) :
    encOutput cfg .plain (celsiusReading b0 b1) u =
      encRendered cfg .plain u (decide (readingOf b0 b1 < 0)) (125 * (readingOf b0 b1).natAbs / 2) := by
  have hbounds := readingOf_bounds b0 b1
  have hq : (readingOf b0 b1).natAbs ≤ 4096 := by omega
  have hneg : encNegFlag (celsiusReading b0 b1) = decide (readingOf b0 b1 < 0) := fltLt_celsiusReading b0 b1
  rw [encOutput, hneg, celsiusReading, if_pos (encodable_reading hq), scaledInteger_plain_reading hq]

/-- Settles O51: the state after the Live tick, with ENC's outputs for an exact reading that five digits hold. -/
theorem readingIsDisplayedFaithfully : Obligations.ReadingIsDisplayedFaithfully := by
  intro s b0 b1 rest hp hmode hrange
  have hout : liveOutput s.config b0 b1 .celsius = _ := encOutput_celsiusReading s.config b0 b1 .celsius
  have hinv : (liveOutput s.config b0 b1 .celsius).inv = false := by rw [hout]; rfl
  have hblank : (liveOutput s.config b0 b1 .celsius).blank = false := by rw [hout]; rfl
  have hneg : (liveOutput s.config b0 b1 .celsius).neg = decide (readingOf b0 b1 < 0) := by rw [hout]; rfl
  refine ⟨_, _, liveOutput s.config b0 b1 .celsius, stepN_liveTick hp hmode, rfl, rfl, rfl, ?weight, ?ovf, hinv, hneg,
    ?sign, fun i => lut_encOutput_digit i hinv fun _ => hblank, lut_encOutput_useg _ _ .celsius _,
    encOutput_sign _ _ _ _, displayShows_showing _ _⟩
  case weight =>
    rw [hout, weightedSum_encRendered]
    omega
  case ovf =>
    rw [hout]
    refine decide_eq_false ?_
    rw [maxFiveDigits]
    omega
  case sign => rw [hneg, decReading_neg]

end Sys2Proof.Machine
end

section
/-! R26, R44 and R46: the set-baseline action, by induction over its reads. -/

namespace Sys2Proof.Machine

/-! ### What the readings of an average leave unchanged -/

/-- The parts of the state that taking readings leaves unchanged. -/
structure SameButReadings (s t : State) : Prop where
  config : t.config = s.config
  enc : t.enc = s.enc
  pwm : t.pwm = s.pwm
  draws : t.draws = s.draws
  mode : t.host.mode = s.host.mode
  inDifference : t.host.inDifference = s.host.inDifference
  baseline : t.host.baseline = s.host.baseline
  duty : t.host.duty = s.host.duty
  display : t.host.display = s.host.display
  dpMask : t.host.dpMask = s.host.dpMask

theorem SameButReadings.refl (s : State) : SameButReadings s s := by constructor <;> rfl

theorem SameButReadings.trans {s t u : State} (hst : SameButReadings s t) (htu : SameButReadings t u) :
    SameButReadings s u where
  config := htu.config.trans hst.config
  enc := htu.enc.trans hst.enc
  pwm := htu.pwm.trans hst.pwm
  draws := htu.draws.trans hst.draws
  mode := htu.mode.trans hst.mode
  inDifference := htu.inDifference.trans hst.inDifference
  baseline := htu.baseline.trans hst.baseline
  duty := htu.duty.trans hst.duty
  display := htu.display.trans hst.display
  dpMask := htu.dpMask.trans hst.dpMask

/-! ### One sample -/

theorem step_takeSample {s : State} {c : Flt} {rest : List HostStep} (hp : s.program = .takeSample :: rest)
    (hc : HasReading s c) : step s = .next { s with program := rest, host := addSample c s.host } := by
  obtain ⟨-, -, huse, -⟩ := readingReachesItsUse s rest c hc
  exact huse hp

/-- The state after one read, one DECODE and one sample. -/
def afterSample (b0 b1 : Byte) (program : List HostStep) (s : State) : State :=
  { afterReading b0 b1 program s with
    host := addSample (celsiusReading b0 b1) (afterReading b0 b1 program s).host }

theorem sameButReadings_afterSample (b0 b1 : Byte) (program : List HostStep) (s : State) :
    SameButReadings s (afterSample b0 b1 program s) := by constructor <;> rfl

theorem stepN_sample {s : State} {b0 b1 : Byte} {replies : List (Option (Byte × Byte))} {after rest : List HostStep}
    (hp : s.program = samplingSteps (some (b0, b1) :: replies) after ++ rest) :
    stepN 4 s = .next (afterSample b0 b1 (samplingSteps replies after ++ rest) s) := by
  refine Eq.trans (stepN_add (n := 3) (m := 1) (stepN_readingSteps_completed hp)) ?_
  refine Eq.trans (stepN_succ (step_takeSample rfl (hasReading_afterReading b0 b1 _ _))) ?_
  rfl

/-! ### All samples -/

/-- With every read completed, each one adds its reading to the samples. -/
theorem exists_stepN_samples {s : State} {bytes : List (Byte × Byte)} {after rest : List HostStep}
    (hp : s.program = samplingSteps (bytes.map some) after ++ rest) :
    ∃ t, stepN (4 * bytes.length) s = .next t ∧ t.program = after ++ rest ∧
      t.host.samples = s.host.samples ++ bytes.map (fun b => celsiusReading b.1 b.2) ∧ SameButReadings s t := by
  induction bytes generalizing s with
  | nil => exact ⟨s, rfl, hp, (List.append_nil _).symm, .refl s⟩
  | cons b bytes ih =>
    obtain ⟨b0, b1⟩ := b
    obtain ⟨t, hrun, hprog, hsamples, hsame⟩ :=
      ih (s := afterSample b0 b1 (samplingSteps (bytes.map some) after ++ rest) s) rfl
    refine ⟨t, ?_, hprog, ?_, (sameButReadings_afterSample b0 b1 _ s).trans hsame⟩
    · rw [List.length_cons, Nat.mul_succ, Nat.add_comm, stepN_add (stepN_sample hp), hrun]
    · rw [hsamples, List.map_cons, afterSample, addSample_samples, List.append_assoc]
      rfl

theorem sameButReadings_afterFailedReading (program : List HostStep) (s : State) :
    SameButReadings s (afterFailedReading program s) := by constructor <;> rfl

/-- The first read that fails ends the sequence with the read error. -/
theorem exists_stepN_failed_sample {s : State} {replies : List (Option (Byte × Byte))} {after rest : List HostStep}
    (hp : s.program = samplingSteps replies after ++ rest) (hfail : none ∈ replies) :
    ∃ n t, stepN n s = .next t ∧ t.program = rest ∧ t.host.readError = true ∧ SameButReadings s t := by
  induction replies generalizing s with
  | nil => cases hfail
  | cons reply replies ih =>
    cases reply with
    | none => exact ⟨3, _, stepN_readingSteps_failed hp, rfl, rfl, sameButReadings_afterFailedReading rest s⟩
    | some b =>
      obtain ⟨b0, b1⟩ := b
      obtain ⟨n, t, hrun, hprog, herror, hsame⟩ :=
        ih (s := afterSample b0 b1 (samplingSteps replies after ++ rest) s) rfl (by simpa using hfail)
      refine ⟨4 + n, t, ?_, hprog, herror, (sameButReadings_afterSample b0 b1 _ s).trans hsame⟩
      rw [stepN_add (stepN_sample hp), hrun]

/-! ### The start of the action -/

theorem step_baselineAction {s : State} {replies : Vector (Option (Byte × Byte)) 30} {rest : List HostStep}
    (hp : s.program = .baselineAction replies :: rest) :
    step s = .next (withProgram (baselineActionSteps s.host replies ++ rest) s) :=
  step_of_hostStep hp rfl

theorem button_codeSetBaseline {s : State} (hmode : s.host.mode = .calibrate) (hdiff : s.host.inDifference = false) :
    button codeSetBaseline s = withHost { s.host with samples := [] } s := by
  rw [button_of_not_inDifference hdiff]
  simp [buttonInMode, codeIdle, codeLive, codeCalibrate, codeSetBaseline, hmode]

/-- The state in which the readings of the action begin. -/
def startSampling (replies : Vector (Option (Byte × Byte)) 30) (rest : List HostStep) (s : State) : State :=
  { s with
    program := samplingSteps replies.toList
      [.setBaseline, .passBaseline, .operation (encode (.encPlain .celsius)), .writeDisplay] ++ rest
    host := { s.host with samples := [] } }

theorem sameButReadings_startSampling (replies : Vector (Option (Byte × Byte)) 30) (rest : List HostStep) (s : State) :
    SameButReadings s (startSampling replies rest s) := by constructor <;> rfl

theorem stepN_startSampling {s : State} {replies : Vector (Option (Byte × Byte)) 30} {rest : List HostStep}
    (hp : s.program = .baselineAction replies :: rest) (hmode : s.host.mode = .calibrate)
    (hdiff : s.host.inDifference = false) : stepN 2 s = .next (startSampling replies rest s) := by
  have hsteps : baselineActionSteps s.host replies = baselineSteps replies := if_pos ⟨hmode, hdiff⟩
  rw [stepN_succ (step_baselineAction hp), hsteps]
  refine Eq.trans (stepN_succ (step_of_button rfl)) ?_
  exact congrArg _ (button_codeSetBaseline (s := withProgram _ (withProgram _ s)) hmode hdiff)

/-! ### The end of the action -/

theorem step_setBaseline {s : State} {rest : List HostStep} (hp : s.program = .setBaseline :: rest)
    (hmode : s.host.mode = .calibrate) (hdiff : s.host.inDifference = false) (hlen : s.host.samples.length = 30) :
    step s = .next { s with
      program := rest
      host := { s.host with baseline := Config.hostMean s.draws s.host.samples, samples := [] }
      draws := s.draws + 1 } :=
  (baselineIsMeanOfThirtyReadings s rest hp).1 hmode hdiff hlen

theorem step_passBaseline {s : State} {rest : List HostStep} (hp : s.program = .passBaseline :: rest) :
    step s = .next { s with program := rest, encV := s.host.baseline } :=
  step_of_hostStep hp rfl

/-- The state in which Baseline is set to `v` and shown in Celsius. -/
def afterShowBaseline (v : Flt) (rest : List HostStep) (s : State) : State :=
  { s with
    program := rest
    sel := encode (.encPlain .celsius)
    encV := v
    encUnit := .celsius
    encPath := .plain
    enc := some (encOutput s.config .plain v .celsius)
    host := showing (encOutput s.config .plain v .celsius) { s.host with baseline := v, samples := [] }
    draws := s.draws + 1 }

theorem stepN_showBaseline {s : State} {rest : List HostStep}
    (hp : s.program =
      [.setBaseline, .passBaseline, .operation (encode (.encPlain .celsius)), .writeDisplay] ++ rest)
    (hmode : s.host.mode = .calibrate) (hdiff : s.host.inDifference = false) (hlen : s.host.samples.length = 30) :
    stepN 4 s = .next (afterShowBaseline (Config.hostMean s.draws s.host.samples) rest s) := by
  refine Eq.trans (stepN_succ (step_setBaseline hp hmode hdiff hlen)) ?_
  refine Eq.trans (stepN_succ (step_passBaseline rfl)) ?_
  refine Eq.trans (stepN_succ (step_encInstr (path := .plain) (u := .celsius) rfl)) ?_
  refine Eq.trans (stepN_succ (step_writeDisplay rfl rfl (encOutput_status_ne _ _ _ _))) ?_
  rfl

/-! ### The action -/

/-- With every read completed the action ends with the mean of the readings as Baseline, on the display. -/
theorem exists_stepN_baselineAction {s : State} {bytes : Vector (Byte × Byte) 30} {rest : List HostStep}
    (hp : s.program = .baselineAction (bytes.map some) :: rest) (hmode : s.host.mode = .calibrate)
    (hdiff : s.host.inDifference = false) :
    ∃ t, SameButReadings s t ∧ stepN 126 s = .next
      (afterShowBaseline (Config.hostMean s.draws (bytes.toList.map fun b => celsiusReading b.1 b.2)) rest t) := by
  have hlist : (bytes.map some).toList = bytes.toList.map some := Vector.toList_map
  obtain ⟨t, hrun, hprog, hsamples, hsame⟩ :=
    exists_stepN_samples (s := startSampling (bytes.map some) rest s) (bytes := bytes.toList)
      (by rw [← hlist]; rfl)
  have hst := (sameButReadings_startSampling (bytes.map some) rest s).trans hsame
  rw [Vector.length_toList] at hrun
  have hmean : t.host.samples = bytes.toList.map fun b => celsiusReading b.1 b.2 := hsamples
  refine ⟨t, hst, ?_⟩
  rw [← hmean, ← hst.draws, stepN_add (n := 2) (m := 124) (stepN_startSampling hp hmode hdiff),
    stepN_add (n := 4 * 30) (m := 4) hrun]
  refine stepN_showBaseline hprog (hst.mode.trans hmode) (hst.inDifference.trans hdiff) ?_
  rw [hmean, List.length_map, Vector.length_toList]

/-- After a failed read the action ends with the read error, and what it would have shown is not shown. -/
theorem exists_stepN_failed_baselineAction {s : State} {replies : Vector (Option (Byte × Byte)) 30}
    {rest : List HostStep} (hp : s.program = .baselineAction replies :: rest) (hmode : s.host.mode = .calibrate)
    (hdiff : s.host.inDifference = false) {i : Fin 30} (hfail : replies[i.val] = none) :
    ∃ n t, stepN n s = .next t ∧ t.program = rest ∧ t.host.readError = true ∧ SameButReadings s t := by
  have hmem : none ∈ replies.toList := by
    rw [← hfail, Vector.mem_toList_iff]
    exact Vector.getElem_mem _
  obtain ⟨n, t, hrun, hprog, herror, hsame⟩ :=
    exists_stepN_failed_sample (s := startSampling replies rest s) rfl hmem
  refine ⟨2 + n, t, ?_, hprog, herror, (sameButReadings_startSampling replies rest s).trans hsame⟩
  rw [stepN_add (stepN_startSampling hp hmode hdiff), hrun]

theorem baselineActionSteps_of_other {h : HostState} (hother : h.mode ≠ .calibrate ∨ h.inDifference = true)
    (replies : Vector (Option (Byte × Byte)) 30) : baselineActionSteps h replies = [] := by
  refine if_neg ?_
  rintro ⟨hmode, hdiff⟩
  rcases hother with h | h
  · exact h hmode
  · rw [hdiff] at h
    cases h

/-- Settles O60: the action with 30 completed reads, after a failed read, and where it does nothing. -/
theorem baselineActionFollowsTable : Obligations.BaselineActionFollowsTable := by
  intro s replies rest hp
  refine ⟨?completed, ?failed, fun hother => ?other⟩
  case completed =>
    rintro bytes hmode hdiff rfl
    obtain ⟨t, hsame, hrun⟩ := exists_stepN_baselineAction hp hmode hdiff
    refine ⟨_, _, hrun, rfl, rfl, rfl, hsame.mode.trans hmode, hsame.duty, hsame.pwm, rfl, rfl, rfl, rfl, ?_,
      displayShows_showing _ _⟩
    rw [hsame.config]
    exact exec_encInstr .plain .celsius _
  case failed =>
    rintro hmode hdiff ⟨i, hfail⟩
    obtain ⟨n, t, hrun, hprog, herror, hsame⟩ := exists_stepN_failed_baselineAction hp hmode hdiff hfail
    exact ⟨n, t, hrun, hprog, hsame.baseline, herror, hsame.display, hsame.dpMask, hsame.enc⟩
  case other =>
    rw [step_baselineAction hp, baselineActionSteps_of_other hother]
    rfl

end Sys2Proof.Machine
end
